-- ==== Sys2Proof/Word.lean ====
section
/-! DEFINITION. Bytes, 16-bit values and byte strings of a fixed length (00_scope.md R8, R9, R10). -/

namespace Sys2Proof

/-- R8: an 8-bit value, bit 0 the least significant. -/
abbrev Byte := BitVec 8

/-- A 16-bit value: the CRC, and the checksum pair in the form of R102. -/
abbrev Half := BitVec 16

/-- R9: a byte string of length `n`, `name[n]` in the spec. The length is part of the type, so that an
operand of another length cannot be written (20_memory.md R54). -/
structure Bytes (n : Nat) where
  data : List Byte
  size : data.length = n
deriving DecidableEq, Repr

/-- R9: `s[i]`; zero for an index the string does not have. -/
def Bytes.get {n : Nat} (s : Bytes n) (i : Nat) : Byte := s.data.getD i 0

/-- R10: `a ^ b` on byte strings of one length. -/
def Bytes.xor {n : Nat} (a b : Bytes n) : Bytes n :=
  ⟨List.zipWith (· ^^^ ·) a.data b.data, by simp [a.size, b.size]⟩

/-- `n` zero bytes. -/
def Bytes.zero (n : Nat) : Bytes n := ⟨List.replicate n 0, by simp⟩

/-- The first `k` bytes of a longer string. -/
def Bytes.first {n : Nat} (s : Bytes n) (k : Nat) (h : k ≤ n) : Bytes k :=
  ⟨s.data.take k, by simp [s.size, h]⟩

/-- R9: the `n` bytes of `x` from index `i` on; zero where `x` has no such byte. -/
def Bytes.slice (x : List Byte) (i n : Nat) : Bytes n :=
  ⟨(List.range n).map fun j => x.getD (i + j) 0, by simp⟩

end Sys2Proof
end

