-- ==== Sys2Proof/Syntax.lean ====
section
/-! DEFINITION. The operands (frame record R71, options record R88) and the one inductive of instructions: a constructor
for each row of the opcode table. -/

namespace Sys2Proof

/-- 30_encoding.md R71: the frame record. It has no `msgLen` and no CRC; both are computed and checked by the codec. -/
structure Frame where
  protocol : BitVec 1
  startFrame : BitVec 1
  endFrame : BitVec 1
  ctrl2 : Byte
  source : Bytes 3
  target : Bytes 3
  cmd : Byte
  payload : List Byte
deriving DecidableEq, Repr

/-- 30_encoding.md R88: the options record of SEND. -/
structure SendOpts where
  /-- The channel's place in the closed set of names: 0 is `CHANNEL1`, 1 is `CHANNEL2`, and so on. -/
  frequency : Nat
  /-- Milliseconds between hardware repeats. -/
  repeatTime : Nat
  /-- The option `repeat`: the hardware repeat count, 0 for none. -/
  repeatCount : Nat
  lock : Bool
  shortPreamble : Bool
  /-- Milliseconds before the first transmission may start. -/
  delayed : Nat
deriving DecidableEq, Repr

/-- The fields of a frame to or from one peer that the command byte does not settle. -/
structure FrameHeader where
  protocol : BitVec 1
  startFrame : BitVec 1
  endFrame : BitVec 1
  ctrl2 : Byte
  source : Bytes 3
  target : Bytes 3
deriving DecidableEq, Repr

/-- The same for a broadcast frame, whose target is the broadcast address (30_encoding.md R90). -/
structure BroadcastHeader where
  protocol : BitVec 1
  startFrame : BitVec 1
  endFrame : BitVec 1
  ctrl2 : Byte
  source : Bytes 3
deriving DecidableEq, Repr

/-- The way a frame passes the radio when its command byte does not settle it: sent by the host, or received from a
peer. -/
inductive Passage
  | send (opts : SendOpts)
  | receive
deriving DecidableEq, Repr

/-- One constructor for each row of the opcode table: fourteen operations (30_encoding.md R85), four pseudo-operations
(R86), twenty-six wire command bytes (R90). The operands of an operation stand in the order of 10_state.md R25. -/
inductive Instr
  | cksStep (byte s1 s2 : Byte)
  | iv2w (frameData : List Byte) (challenge : Bytes 6)
  | iv1w (frameData : List Byte) (sequence : Bytes 2)
  | aesEnc (key block : Bytes 16)
  | wrap2w (key : Bytes 16) (challenge : Bytes 6) (frameData : List Byte)
  | wrap1w (nodeAddress : Bytes 3) (key : Bytes 16)
  | mac2w (challenge : Bytes 6) (key : Bytes 16) (frameData : List Byte)
  | mac1w (sequence : Bytes 2) (key : Bytes 16) (frameData : List Byte)
  | crc16 (data : List Byte)
  | frameEnc (frame : Frame)
  | frameDec (bytes : List Byte)
  | send (frame : Frame) (opts : SendOpts)
  | onReceive (callback : Nat)
  | selftest
  | unwrap2w (wrapped : Bytes 16) (challenge : Bytes 6) (frameData : List Byte)
  | unwrap1w (nodeAddress : Bytes 3) (key : Bytes 16)
  | crcCheck (bytes : List Byte)
  | cks (frameData : List Byte)
  /-- Plug ON and plug OFF; the six payload bytes are the operand. -/
  | cmd00 (header : FrameHeader) (payload : Bytes 6) (opts : SendOpts)
  | cmd03 (header : FrameHeader) (opts : SendOpts)
  /-- The payload of the status answer is not given: any bytes. -/
  | cmd04 (header : FrameHeader) (payload : List Byte)
  | cmd28 (header : BroadcastHeader) (opts : SendOpts)
  | cmd29 (header : FrameHeader) (payload : Bytes 9)
  | cmd2A (header : BroadcastHeader) (payload : Bytes 12) (opts : SendOpts)
  | cmd2C (header : FrameHeader) (opts : SendOpts)
  | cmd2D (header : FrameHeader)
  | cmd2E (header : FrameHeader) (opts : SendOpts)
  | cmd2F (header : FrameHeader) (status : Byte)
  /-- The 1W key push: the wrapped key, then the bytes of the 1W trailer. -/
  | cmd30 (header : FrameHeader) (wrapped : Bytes 16) (trailer : List Byte) (passage : Passage)
  | cmd31 (header : FrameHeader) (opts : SendOpts)
  | cmd32 (header : FrameHeader) (wrapped : Bytes 16) (opts : SendOpts)
  | cmd33 (header : FrameHeader)
  | cmd36 (header : FrameHeader) (opts : SendOpts)
  | cmd37 (header : FrameHeader) (address : Bytes 3)
  | cmd38 (header : FrameHeader) (challenge : Bytes 6) (passage : Passage)
  | cmd3C (header : FrameHeader) (challenge : Bytes 6) (passage : Passage)
  | cmd3D (header : FrameHeader) (mac : Bytes 6) (passage : Passage)
  | cmd50 (header : FrameHeader) (opts : SendOpts)
  | cmd51 (header : FrameHeader) (name : Bytes 16)
  | cmd54 (header : FrameHeader) (opts : SendOpts)
  | cmd55 (header : FrameHeader) (info : Bytes 14)
  | cmd56 (header : FrameHeader) (opts : SendOpts)
  | cmd57 (header : FrameHeader) (info : Bytes 16)
  /-- The first payload byte is the status; more may follow. -/
  | cmdFE (header : FrameHeader) (status : Byte) (more : List Byte)
deriving DecidableEq, Repr

/-- The three formats of the opcode table's rows. -/
inductive Format
  /-- An operation: its 8-bit code, then its operands (30_encoding.md R85). -/
  | op8
  /-- A pseudo-operation: no code of its own (R86). -/
  | pseudo
  /-- A wire command byte: byte 8 of a frame (R90). -/
  | wireCmd
deriving DecidableEq, Repr

/-- The format of an instruction's row. -/
def Instr.format : Instr → Format
  | .cksStep .. | .iv2w .. | .iv1w .. | .aesEnc .. | .wrap2w .. | .wrap1w .. | .mac2w .. | .mac1w .. | .crc16 ..
  | .frameEnc .. | .frameDec .. | .send .. | .onReceive .. | .selftest => .op8
  | .unwrap2w .. | .unwrap1w .. | .crcCheck .. | .cks .. => .pseudo
  | .cmd00 .. | .cmd03 .. | .cmd04 .. | .cmd28 .. | .cmd29 .. | .cmd2A .. | .cmd2C .. | .cmd2D .. | .cmd2E ..
  | .cmd2F .. | .cmd30 .. | .cmd31 .. | .cmd32 .. | .cmd33 .. | .cmd36 .. | .cmd37 .. | .cmd38 .. | .cmd3C ..
  | .cmd3D .. | .cmd50 .. | .cmd51 .. | .cmd54 .. | .cmd55 .. | .cmd56 .. | .cmd57 .. | .cmdFE .. => .wireCmd

end Sys2Proof
end

