-- ==== Sys2Proof/Decode.lean ====
section
/-! DEFINITION. Reading an instruction from the bytes of a request, total on any bytes and rejecting by name, and the
encoder that writes them. The operation codes are 30_encoding.md R85's, the wire command bytes R90's, the operand order
10_state.md R25's. How an operand is laid into the bytes after the code is the model's own choice (DESIGN CHOICE,
assumption 2): the spec passes operands whole and gives them no bytes. -/

namespace Sys2Proof

/-- Why a request is no instruction. -/
inductive DecodeError
  /-- No byte at all. -/
  | empty
  /-- R85: the code names no operation. The block answers it with the result `UnknownOp`. -/
  | unknownOp (code : Byte)
  /-- R90 lists no such command byte. -/
  | uncatalogued (cmd : Byte)
  /-- 20_memory.md R54: the operands are not those of R25. -/
  | malformed (code : Byte)
deriving DecidableEq, Repr

/-- A reader takes what it reads off the front and leaves the rest; `none` where the bytes do not hold it. -/
abbrev Reader (α : Type) := List Byte → Option (α × List Byte)

/-! The operand forms, each as a writer and a reader. -/

/-- One byte. -/
def readByte : Reader Byte
  | [] => none
  | b :: r => some (b, r)

/-- A bit or a boolean is a byte 0 or 1. -/
def writeBool (b : Bool) : List Byte := [if b then 1 else 0]

/-- Reads what `writeBool` writes, and nothing else. -/
def readBool : Reader Bool
  | [] => none
  | b :: r => if b = 0 then some (false, r) else if b = 1 then some (true, r) else none

/-- A one-bit field, as a byte 0 or 1. -/
def writeBit (b : BitVec 1) : List Byte := [b.zeroExtend 8]

/-- Reads what `writeBit` writes, and nothing else. -/
def readBit : Reader (BitVec 1)
  | [] => none
  | b :: r => if b = 0 then some (0, r) else if b = 1 then some (1, r) else none

/-- A byte string of a fixed length stands as it is. -/
def readBytes (n : Nat) : Reader (Bytes n) := fun l =>
  if h : n ≤ l.length then some (⟨l.take n, by simp [h]⟩, l.drop n) else none

/-- A byte string of any length: a byte 1 before each of its bytes, a byte 0 after the last. -/
def writeString : List Byte → List Byte
  | [] => [0]
  | b :: s => 1 :: b :: writeString s

/-- Reads what `writeString` writes, and nothing else. -/
def readString : Reader (List Byte)
  | [] => none
  | [m] => if m = 0 then some ([], []) else none
  | m :: b :: r =>
    if m = 0 then some ([], b :: r)
    else if m = 1 then
      match readString r with
      | none => none
      | some (s, rest) => some (b :: s, rest)
    else none

/-- The base-256 digits of `n`, least significant first; `fuel` bounds their number. -/
def digits : Nat → Nat → List Byte
  | 0, _ => []
  | fuel + 1, n => if n = 0 then [] else BitVec.ofNat 8 n :: digits fuel (n / 256)

/-- The number with those digits. -/
def ofDigits : List Byte → Nat
  | [] => 0
  | d :: ds => d.toNat + 256 * ofDigits ds

/-- A natural number: the string of its digits. -/
def writeNat (n : Nat) : List Byte := writeString (digits n n)

/-- Reads a string of digits as a number. -/
def readNat : Reader Nat := fun l =>
  match readString l with
  | none => none
  | some (ds, r) => some (ofDigits ds, r)

/-- R71: the fields of a frame record in the order listed there. -/
def writeFrame (f : Frame) : List Byte :=
  writeBit f.protocol ++ writeBit f.startFrame ++ writeBit f.endFrame ++ [f.ctrl2] ++ f.source.data ++ f.target.data ++
    [f.cmd] ++ writeString f.payload

/-- Reads what `writeFrame` writes. -/
def readFrame : Reader Frame := fun l => do
  let (protocol, l) ← readBit l
  let (startFrame, l) ← readBit l
  let (endFrame, l) ← readBit l
  let (ctrl2, l) ← readByte l
  let (source, l) ← readBytes 3 l
  let (target, l) ← readBytes 3 l
  let (cmd, l) ← readByte l
  let (payload, l) ← readString l
  return (⟨protocol, startFrame, endFrame, ctrl2, source, target, cmd, payload⟩, l)

/-- R88: the options in the order of its table. -/
def writeOpts (o : SendOpts) : List Byte :=
  writeNat o.frequency ++ writeNat o.repeatTime ++ writeNat o.repeatCount ++ writeBool o.lock ++
    writeBool o.shortPreamble ++ writeNat o.delayed

/-- Reads what `writeOpts` writes. -/
def readOpts : Reader SendOpts := fun l => do
  let (frequency, l) ← readNat l
  let (repeatTime, l) ← readNat l
  let (repeatCount, l) ← readNat l
  let (lock, l) ← readBool l
  let (shortPreamble, l) ← readBool l
  let (delayed, l) ← readNat l
  return (⟨frequency, repeatTime, repeatCount, lock, shortPreamble, delayed⟩, l)

/-- The header of a frame to or from one peer. -/
def writeHeader (h : FrameHeader) : List Byte :=
  writeBit h.protocol ++ writeBit h.startFrame ++ writeBit h.endFrame ++ [h.ctrl2] ++ h.source.data ++ h.target.data

/-- Reads what `writeHeader` writes. -/
def readHeader : Reader FrameHeader := fun l => do
  let (protocol, l) ← readBit l
  let (startFrame, l) ← readBit l
  let (endFrame, l) ← readBit l
  let (ctrl2, l) ← readByte l
  let (source, l) ← readBytes 3 l
  let (target, l) ← readBytes 3 l
  return (⟨protocol, startFrame, endFrame, ctrl2, source, target⟩, l)

/-- The header of a broadcast frame. -/
def writeBroadcast (h : BroadcastHeader) : List Byte :=
  writeBit h.protocol ++ writeBit h.startFrame ++ writeBit h.endFrame ++ [h.ctrl2] ++ h.source.data

/-- Reads what `writeBroadcast` writes. -/
def readBroadcast : Reader BroadcastHeader := fun l => do
  let (protocol, l) ← readBit l
  let (startFrame, l) ← readBit l
  let (endFrame, l) ← readBit l
  let (ctrl2, l) ← readByte l
  let (source, l) ← readBytes 3 l
  return (⟨protocol, startFrame, endFrame, ctrl2, source⟩, l)

/-- The passage: a byte 0 and the options of a frame the host sends, or a byte 1 for a frame received. -/
def writePassage : Passage → List Byte
  | .send o => 0 :: writeOpts o
  | .receive => [1]

/-- Reads what `writePassage` writes. -/
def readPassage : Reader Passage
  | [] => none
  | b :: l =>
    if b = 0 then
      match readOpts l with
      | none => none
      | some (o, l) => some (.send o, l)
    else if b = 1 then some (.receive, l)
    else none

/-! The two tables. -/

/-- 30_encoding.md R85 with the operand order of 10_state.md R25: how the operands after a code are read; `none` for a
code that names no operation. -/
def operationReader (code : Nat) : Option (Reader Instr) :=
  match code with
  | 0x01 => some fun l => do
    let (byte, l) ← readByte l
    let (s1, l) ← readByte l
    let (s2, l) ← readByte l
    return (.cksStep byte s1 s2, l)
  | 0x02 => some fun l => do
    let (frameData, l) ← readString l
    let (challenge, l) ← readBytes 6 l
    return (.iv2w frameData challenge, l)
  | 0x03 => some fun l => do
    let (frameData, l) ← readString l
    let (sequence, l) ← readBytes 2 l
    return (.iv1w frameData sequence, l)
  | 0x10 => some fun l => do
    let (key, l) ← readBytes 16 l
    let (block, l) ← readBytes 16 l
    return (.aesEnc key block, l)
  | 0x20 => some fun l => do
    let (key, l) ← readBytes 16 l
    let (challenge, l) ← readBytes 6 l
    let (frameData, l) ← readString l
    return (.wrap2w key challenge frameData, l)
  | 0x22 => some fun l => do
    let (nodeAddress, l) ← readBytes 3 l
    let (key, l) ← readBytes 16 l
    return (.wrap1w nodeAddress key, l)
  | 0x30 => some fun l => do
    let (challenge, l) ← readBytes 6 l
    let (key, l) ← readBytes 16 l
    let (frameData, l) ← readString l
    return (.mac2w challenge key frameData, l)
  | 0x31 => some fun l => do
    let (sequence, l) ← readBytes 2 l
    let (key, l) ← readBytes 16 l
    let (frameData, l) ← readString l
    return (.mac1w sequence key frameData, l)
  | 0x40 => some fun l => do
    let (data, l) ← readString l
    return (.crc16 data, l)
  | 0x41 => some fun l => do
    let (frame, l) ← readFrame l
    return (.frameEnc frame, l)
  | 0x42 => some fun l => do
    let (bytes, l) ← readString l
    return (.frameDec bytes, l)
  | 0x50 => some fun l => do
    let (frame, l) ← readFrame l
    let (opts, l) ← readOpts l
    return (.send frame opts, l)
  | 0x51 => some fun l => do
    let (callback, l) ← readNat l
    return (.onReceive callback, l)
  | 0x5F => some fun l => some (.selftest, l)
  | _ => none

/-- A header and the options: the operands of a command the host sends with no payload of its own. -/
def readPlain (make : FrameHeader → SendOpts → Instr) : Reader Instr := fun l => do
  let (header, l) ← readHeader l
  let (opts, l) ← readOpts l
  return (make header opts, l)

/-- A header and a payload of a fixed length: the operands of a command a peer sends. -/
def readAnswer (n : Nat) (make : FrameHeader → Bytes n → Instr) : Reader Instr := fun l => do
  let (header, l) ← readHeader l
  let (payload, l) ← readBytes n l
  return (make header payload, l)

/-- A header, a payload of a fixed length and a passage: the operands of a command that goes both ways. -/
def readEither (n : Nat) (make : FrameHeader → Bytes n → Passage → Instr) : Reader Instr := fun l => do
  let (header, l) ← readHeader l
  let (payload, l) ← readBytes n l
  let (passage, l) ← readPassage l
  return (make header payload passage, l)

/-- 30_encoding.md R90: how what the host or the peer puts beside a command byte is read; `none` for a byte the catalog
does not list. -/
def commandReader (cmd : Nat) : Option (Reader Instr) :=
  match cmd with
  | 0x00 => some fun l => do
    let (header, l) ← readHeader l
    let (payload, l) ← readBytes 6 l
    let (opts, l) ← readOpts l
    return (.cmd00 header payload opts, l)
  | 0x03 => some (readPlain .cmd03)
  | 0x04 => some fun l => do
    let (header, l) ← readHeader l
    let (payload, l) ← readString l
    return (.cmd04 header payload, l)
  | 0x28 => some fun l => do
    let (header, l) ← readBroadcast l
    let (opts, l) ← readOpts l
    return (.cmd28 header opts, l)
  | 0x29 => some (readAnswer 9 .cmd29)
  | 0x2A => some fun l => do
    let (header, l) ← readBroadcast l
    let (payload, l) ← readBytes 12 l
    let (opts, l) ← readOpts l
    return (.cmd2A header payload opts, l)
  | 0x2C => some (readPlain .cmd2C)
  | 0x2D => some fun l => do
    let (header, l) ← readHeader l
    return (.cmd2D header, l)
  | 0x2E => some (readPlain .cmd2E)
  | 0x2F => some fun l => do
    let (header, l) ← readHeader l
    let (status, l) ← readByte l
    return (.cmd2F header status, l)
  | 0x30 => some fun l => do
    let (header, l) ← readHeader l
    let (wrapped, l) ← readBytes 16 l
    let (trailer, l) ← readString l
    let (passage, l) ← readPassage l
    return (.cmd30 header wrapped trailer passage, l)
  | 0x31 => some (readPlain .cmd31)
  | 0x32 => some fun l => do
    let (header, l) ← readHeader l
    let (wrapped, l) ← readBytes 16 l
    let (opts, l) ← readOpts l
    return (.cmd32 header wrapped opts, l)
  | 0x33 => some fun l => do
    let (header, l) ← readHeader l
    return (.cmd33 header, l)
  | 0x36 => some (readPlain .cmd36)
  | 0x37 => some (readAnswer 3 .cmd37)
  | 0x38 => some (readEither 6 .cmd38)
  | 0x3C => some (readEither 6 .cmd3C)
  | 0x3D => some (readEither 6 .cmd3D)
  | 0x50 => some (readPlain .cmd50)
  | 0x51 => some (readAnswer 16 .cmd51)
  | 0x54 => some (readPlain .cmd54)
  | 0x55 => some (readAnswer 14 .cmd55)
  | 0x56 => some (readPlain .cmd56)
  | 0x57 => some (readAnswer 16 .cmd57)
  | 0xFE => some fun l => do
    let (header, l) ← readHeader l
    let (status, l) ← readByte l
    let (more, l) ← readString l
    return (.cmdFE header status more, l)
  | _ => none

/-- After the last operand only padding of zero bytes may stand (assumption 3). -/
def readWhole (code : Byte) (reader : Reader Instr) (l : List Byte) : Except DecodeError Instr :=
  match reader l with
  | none => .error (.malformed code)
  | some (i, rest) => if rest.all (· == 0) then .ok i else .error (.malformed code)

/-- R85: the operation a host's request names. -/
def decodeOperation : List Byte → Except DecodeError Instr
  | [] => .error .empty
  | code :: l =>
    match operationReader code.toNat with
    | none => .error (.unknownOp code)
    | some reader => readWhole code reader l

/-- R90: the catalogued command that a frame to be sent or received carries. -/
def decodeCommand : List Byte → Except DecodeError Instr
  | [] => .error .empty
  | cmd :: l =>
    match commandReader cmd.toNat with
    | none => .error (.uncatalogued cmd)
    | some reader => readWhole cmd reader l

/-! The encoder. -/

/-- The words of an instruction. A pseudo-operation has no code of its own (R86): UNWRAP2W, UNWRAP1W and CRC_CHECK are
issued with the words of WRAP2W, WRAP1W and CRC16; CKS is issued as one CKS_STEP for each byte and has no words of its
own. -/
def encode : Instr → List Byte
  | .cksStep byte s1 s2 => [0x01, byte, s1, s2]
  | .iv2w d c => 0x02 :: (writeString d ++ c.data)
  | .iv1w d q => 0x03 :: (writeString d ++ q.data)
  | .aesEnc k b => 0x10 :: (k.data ++ b.data)
  | .wrap2w k c d => 0x20 :: (k.data ++ c.data ++ writeString d)
  | .wrap1w a k => 0x22 :: (a.data ++ k.data)
  | .mac2w c k d => 0x30 :: (c.data ++ k.data ++ writeString d)
  | .mac1w q k d => 0x31 :: (q.data ++ k.data ++ writeString d)
  | .crc16 x => 0x40 :: writeString x
  | .frameEnc f => 0x41 :: writeFrame f
  | .frameDec x => 0x42 :: writeString x
  | .send f o => 0x50 :: (writeFrame f ++ writeOpts o)
  | .onReceive cb => 0x51 :: writeNat cb
  | .selftest => [0x5F]
  | .unwrap2w w c d => 0x20 :: (w.data ++ c.data ++ writeString d)
  | .unwrap1w a k => 0x22 :: (a.data ++ k.data)
  | .crcCheck x => 0x40 :: writeString x
  | .cks _ => []
  | .cmd00 h p o => 0x00 :: (writeHeader h ++ p.data ++ writeOpts o)
  | .cmd03 h o => 0x03 :: (writeHeader h ++ writeOpts o)
  | .cmd04 h p => 0x04 :: (writeHeader h ++ writeString p)
  | .cmd28 h o => 0x28 :: (writeBroadcast h ++ writeOpts o)
  | .cmd29 h p => 0x29 :: (writeHeader h ++ p.data)
  | .cmd2A h p o => 0x2A :: (writeBroadcast h ++ p.data ++ writeOpts o)
  | .cmd2C h o => 0x2C :: (writeHeader h ++ writeOpts o)
  | .cmd2D h => 0x2D :: writeHeader h
  | .cmd2E h o => 0x2E :: (writeHeader h ++ writeOpts o)
  | .cmd2F h st => 0x2F :: (writeHeader h ++ [st])
  | .cmd30 h w t p => 0x30 :: (writeHeader h ++ w.data ++ writeString t ++ writePassage p)
  | .cmd31 h o => 0x31 :: (writeHeader h ++ writeOpts o)
  | .cmd32 h w o => 0x32 :: (writeHeader h ++ w.data ++ writeOpts o)
  | .cmd33 h => 0x33 :: writeHeader h
  | .cmd36 h o => 0x36 :: (writeHeader h ++ writeOpts o)
  | .cmd37 h a => 0x37 :: (writeHeader h ++ a.data)
  | .cmd38 h c p => 0x38 :: (writeHeader h ++ c.data ++ writePassage p)
  | .cmd3C h c p => 0x3C :: (writeHeader h ++ c.data ++ writePassage p)
  | .cmd3D h m p => 0x3D :: (writeHeader h ++ m.data ++ writePassage p)
  | .cmd50 h o => 0x50 :: (writeHeader h ++ writeOpts o)
  | .cmd51 h n => 0x51 :: (writeHeader h ++ n.data)
  | .cmd54 h o => 0x54 :: (writeHeader h ++ writeOpts o)
  | .cmd55 h n => 0x55 :: (writeHeader h ++ n.data)
  | .cmd56 h o => 0x56 :: (writeHeader h ++ writeOpts o)
  | .cmd57 h n => 0x57 :: (writeHeader h ++ n.data)
  | .cmdFE h st more => 0xFE :: (writeHeader h ++ [st] ++ writeString more)

/-! The opcode table's words. -/

/-- The bytes of a word, the least significant first. -/
def wordBytes : Nat → Nat → List Byte
  | 0, _ => []
  | k + 1, w => BitVec.ofNat 8 w :: wordBytes k (w / 256)

/-- The bytes of a table row's word: what the table gives, then operand bytes of zeros, more than any instruction whose
operands are zeros takes. -/
def tableBytes (nbits w : Nat) : List Byte := wordBytes (nbits / 8) w ++ List.replicate 64 0

/-- Whether a table word is a wire command byte and not an operation code. The same eight bits may be both (`03`, `30`,
`31`, `50`, `51`); a table word does not say which it is, and the operation code wins (assumption 4). -/
def startsCommand : List Byte → Bool
  | [] => false
  | code :: _ => (operationReader code.toNat).isNone && (commandReader code.toNat).isSome

/-- The instruction the decoder reads from a row's word. -/
def decodeTableWord (nbits w : Nat) : Option Instr :=
  let bytes := tableBytes nbits w
  (if startsCommand bytes then decodeCommand bytes else decodeOperation bytes).toOption

end Sys2Proof
end

