-- ==== Sys2Proof/Config.lean ====
section
/-! DEFINITION. What an implementation fixes and the spec leaves open (00_scope.md R7, the `OPEN` rows), and the
free values. Every `opaque` constant here has no body: nothing can be proved of its value. -/

namespace Sys2Proof

/-- R194 (c), 92_eei_decisions.md D20: what happens to the repeats still owed for a frame sent with `lock = false`
when another frame is queued. -/
inductive RepeatPolicy
  /-- The repeats go on; other due entries may start between them. -/
  | goOn
  /-- The remaining repeats are abandoned. -/
  | drop
deriving DecidableEq, Repr, Inhabited

/-- R7 `TXQ_DEPTH`, open, at least 1: how much it exceeds 1. -/
opaque Config.txqExtra : Nat

/-- R7 `TXQ_DEPTH`: how many accepted frames the arbiter can hold. -/
def Config.txqDepth : Nat := Nat.succ Config.txqExtra

/-- R7 `UNLOCKED_REPEAT_POLICY`, open. -/
opaque Config.unlockedRepeatPolicy : RepeatPolicy

/-- R7 `FD_MAX`, open, at least 22: how much it exceeds 22. -/
opaque Config.fdExtra : Nat

/-- R7 `FD_MAX`: the longest `frame_data` an operand is said to have. -/
def Config.fdMax : Nat := Config.fdExtra + 22

/-- R7 `N_CHANNELS`, open: how many channels there are beyond the two the source names. -/
opaque Config.extraChannels : Nat

/-- R7 `N_CHANNELS`: the size of the closed set of named channels. -/
def Config.nChannels : Nat := Config.extraChannels + 2

/-- R7 `LPM_BIT`, open: the place of the `LPM` flag in `ctrl2`. -/
opaque Config.lpmBit : Fin 8

/-- How far `PRIO_BIT` lies from `LPM_BIT`, less one, counted around the byte: open. -/
opaque Config.prioOffset : Fin 7

/-- R7 `PRIO_BIT`, open: the place of the `Prio` flag in `ctrl2`; two flags have two places. -/
def Config.prioBit : Fin 8 := Config.lpmBit + Config.prioOffset.succ

/-- R281: the clock at reset is unspecified. FREE VALUE. -/
opaque Config.clockAtReset : Nat

/-- 70_reset_and_hazards.md R292 (a): whether the old bytes go out after the host changed an owned frame, for the
`n`-th free value drawn. FREE VALUE. -/
opaque Config.keepsOldBytes : Nat → Bool

/-- R292 (b): the bytes that go out after the host freed an owned frame's storage, for the `n`-th free value drawn.
FREE VALUE. -/
opaque Config.strayBytes : Nat → List Byte

/-- 93_implementation_defined.md U7: byte `i` of the header of the frame that `TxComplete` reports after a breach, for the
`n`-th free value drawn. FREE VALUE. -/
opaque Config.strayHeaderByte : Nat → Nat → Byte

/-- U7: the payload of the frame that `TxComplete` reports after a breach, for the `n`-th free value drawn.
FREE VALUE. -/
opaque Config.strayPayload : Nat → List Byte

/-- 44_crc_frame.md R163 defines CRC_CHECK for strings of two bytes or more; what it answers for a shorter one is not
stated. FREE VALUE. -/
opaque Config.crcCheckShort : List Byte → Bool

end Sys2Proof
end

