-- ==== Sys2Proof/Machine/State.lean ====
section
/-! DEFINITION. The state of the block (10_state.md), what its operations answer, what it reports to the host, and the
turns of its agents; the state after reset (10_state.md R40, 70_reset_and_hazards.md R280). -/

namespace Sys2Proof.Machine

/-- 10_state.md R30: the three radio states. -/
inductive RadioState
  | rx
  | preamble
  | tx
deriving DecidableEq, Repr

/-- 70_reset_and_hazards.md R292: what the host did to the storage of a frame the arbiter owns. -/
inductive FrameStorage
  /-- The host kept the ownership rule. -/
  | intact
  /-- (a) The host changed the record to this one. -/
  | changed (now : Frame)
  /-- (b) The host freed or reused the storage. -/
  | freed
deriving DecidableEq, Repr

/-- 10_state.md R31: a transmit entry. `storage` is the model's own field. -/
structure TxEntry where
  /-- The frame record as given to SEND. -/
  frame : Frame
  /-- Its encoding, made at SEND. -/
  bytes : List Byte
  /-- The options record as given. -/
  opts : SendOpts
  /-- The clock value at which its next transmission may start. -/
  dueAt : Nat
  /-- Transmissions still owed after the current one. -/
  repeatsLeft : Nat
  /-- Whether its first transmission has finished. -/
  firstDone : Bool
  storage : FrameStorage
deriving DecidableEq, Repr

/-- 60_exceptions.md R251: the errors an operation can end with, each with its recorded value. -/
inductive OpError
  | badCrc
  | tooShort (length : Nat)
  | payloadTooLong (payloadLength : Nat)
  | lengthMismatch (msgLen length : Nat)
  | radioBusy
  | unknownOp (code : Byte)
  | selfTestFail (vector : Nat)
deriving DecidableEq, Repr

/-- R251: the numeric code of an error. -/
def OpError.code : OpError → Nat
  | .badCrc => 1
  | .tooShort _ => 2
  | .payloadTooLong _ => 3
  | .lengthMismatch _ _ => 4
  | .radioBusy => 5
  | .unknownOp _ => 6
  | .selfTestFail _ => 7

/-- 10_state.md R25: the result of an operation. An error is a whole result (60_exceptions.md R250). -/
inductive OpResult
  /-- CKS_STEP, CKS: the checksum pair. -/
  | checksum (s1 s2 : Byte)
  /-- IV2W, IV1W, AES_ENC, WRAP2W, WRAP1W: sixteen bytes. -/
  | block (out : Bytes 16)
  /-- MAC2W, MAC1W: six bytes. -/
  | mac (out : Bytes 6)
  /-- CRC16. -/
  | crc (value : Half)
  /-- CRC_CHECK. -/
  | check (good : Bool)
  /-- FRAME_ENC. -/
  | encoded (bytes : List Byte)
  /-- FRAME_DEC. -/
  | decoded (frame : Frame)
  /-- SEND: accepted for transmission. -/
  | accepted
  /-- ON_RECEIVE: nothing. -/
  | nothing
  /-- SELFTEST: every vector came out. -/
  | pass
  | error (e : OpError)
deriving DecidableEq, Repr

/-- R251: the numeric code of a result, 0 for success. -/
def OpResult.code : OpResult → Nat
  | .error e => e.code
  | .checksum .. | .block .. | .mac .. | .crc .. | .check .. | .encoded .. | .decoded .. | .accepted | .nothing
  | .pass => 0

/-- 10_state.md R34: how a transmission ended. -/
inductive TxStatus
  | transmitted
  | failed
deriving DecidableEq, Repr

/-- 60_exceptions.md R256: the two notifications toward the host; there is no third. -/
inductive Notification
  /-- The receive callback was called with a frame record. -/
  | received (callback : Nat) (frame : Frame)
  /-- `TxComplete(frame, status)`. -/
  | txComplete (frame : Frame) (status : TxStatus)
deriving DecidableEq, Repr

/-- What the radio is told to put on the air. -/
inductive AirEvent
  /-- 45_radio_arbiter.md R190: tuned to a channel, a preamble starts, the short one or the long one. -/
  | preamble (channel : Nat) (short : Bool)
  /-- R192: bytes go on the air, byte 0 first. A breach while they go out makes them any value (assumption 20). -/
  | frame (channel : Nat) (bytes : List Byte)
deriving DecidableEq, Repr

/-- A turn of one of the agents (45_radio_arbiter.md R180). -/
inductive Turn
  /-- The host presents an operation: its code and operands (30_encoding.md R85). -/
  | operation (request : List Byte)
  /-- A frame with a catalogued command byte: the host sends one, or a peer's one arrives (R90, assumption 4). -/
  | command (request : List Byte)
  /-- The host's receive callback returns (60_exceptions.md R261). -/
  | callbackReturns
  /-- The host changes the record of owned frame `slot` (70_reset_and_hazards.md R292 (a)). -/
  | frameChanged (slot : Nat) (now : Frame)
  /-- The host frees or reuses the storage of owned frame `slot` (R292 (b)). -/
  | frameFreed (slot : Nat)
  /-- The transmitter's events (45_radio_arbiter.md R190, R192, R193, R195). -/
  | startTx
  | preambleDone
  | txDone
  | txFail
  /-- The air: any byte string (R198). -/
  | rxFrame (bytes : List Byte)
  /-- The millisecond clock advances (10_state.md R35). -/
  | clock (ms : Nat)
  /-- The block is reset (70_reset_and_hazards.md R280, R282). -/
  | reset
deriving DecidableEq, Repr

/-- Everything the spec gives the block, the caller's key storage, its outputs, and the turns to come. INVENTORY.md names
the rule of each field. -/
structure State where
  radioState : RadioState
  txQueue : List TxEntry
  current : Option TxEntry
  rxCallback : Option Nat
  /-- The millisecond clock: an input that the environment advances. -/
  now : Nat
  /-- The receive callback being run, with its frame. -/
  running : Option (Nat × Frame)
  /-- The result of the last operation. -/
  result : Option OpResult
  notifications : List Notification
  air : List AirEvent
  /-- The caller's storage of the key that WRAP1W overwrites. -/
  callerKey : Bytes 16
  /-- How many free values have been drawn. -/
  freeIndex : Nat
  /-- The turns to come, in the order the environment chose. -/
  inputs : List Turn
deriving DecidableEq, Repr

/-- Why the machine stops with a fault. NO CONSTRUCTOR: 60_exceptions.md R250 makes every error a result, nobody raises a
fault. Safe. -/
inductive Fault
deriving DecidableEq, Repr

/-- Why the machine refuses a turn. -/
inductive Refusal
  /-- Raised by exec for an instruction without a meaning; no arm does. Safe: the model stops. -/
  | notModelled (mnemonic : String)
  /-- Raised by a turn whose request is no instruction: operands that are not those of 10_state.md R25 (20_memory.md R54,
  93_implementation_defined.md U5 "refuse"), an empty request, or a command byte that 30_encoding.md R90 does not list in a
  command turn. Safe: the model stops. -/
  | malformedRequest
deriving DecidableEq, Repr

/-- 10_state.md R40, 70_reset_and_hazards.md R280: the block after reset. The clock is unspecified (R281): an opaque
constant (assumption 8). The outputs are empty, the caller's key storage is zeros (DESIGN CHOICE, assumptions 12, 13),
no turn waits (assumption 22), and no callback runs (assumption 35). -/
def State.reset : State where
  radioState := .rx
  txQueue := []
  current := none
  rxCallback := none
  now := Config.clockAtReset
  running := none
  result := none
  notifications := []
  air := []
  callerKey := Bytes.zero 16
  freeIndex := 0
  inputs := []

end Sys2Proof.Machine
end

