-- ==== Sys2Proof/Machine/Ops.lean ====
section
/-! DEFINITION. The named operations over the state. The block has no memory and no registers (20_memory.md R50,
10_state.md R25); what stands for taking an exception is `State.raise` (60_exceptions.md R250) and
`State.enterCallback`, with the return from it beside it (R259, R261). -/

namespace Sys2Proof.Machine

/-- An operation ends with its result. -/
def State.finish (s : State) (r : OpResult) : State := { s with result := some r }

/-- 60_exceptions.md R250, `raise E(info)`: the operation stops, has written no state, and its whole result is the
error. -/
def State.raise (s : State) (e : OpError) : State := { s with result := some (.error e) }

/-- R256: a notification goes out to the host, once. -/
def State.notify (s : State) (n : Notification) : State := { s with notifications := s.notifications ++ [n] }

/-- The radio puts something on the air. -/
def State.emit (s : State) (a : AirEvent) : State := { s with air := s.air ++ [a] }

/-- 60_exceptions.md R261, entry: the callback is called with the frame record; nothing is saved. It runs until it
returns (45_radio_arbiter.md R198). -/
def State.enterCallback (s : State) (callback : Nat) (f : Frame) : State :=
  { s with running := some (callback, f), notifications := s.notifications ++ [.received callback f] }

/-- R261, return: the callback returns; nothing is restored. -/
def State.returnFromCallback (s : State) : State := { s with running := none }

/-- 45_radio_arbiter.md R186: the one callback slot is written. -/
def State.setCallback (s : State) (callback : Nat) : State := { s with rxCallback := some callback }

/-- 42_keywrap.md R145, "in place": the caller's key storage is overwritten. -/
def State.storeCallerKey (s : State) (key : Bytes 16) : State := { s with callerKey := key }

/-- R183: an entry is appended at the tail. -/
def State.enqueue (s : State) (e : TxEntry) : State := { s with txQueue := s.txQueue ++ [e] }

/-- R193: an entry goes back at the head: it is the oldest. -/
def State.requeue (s : State) (e : TxEntry) : State := { s with txQueue := e :: s.txQueue }

/-- R190: an entry leaves the queue and goes on the air. -/
def State.beginTx (s : State) (e : TxEntry) (rest : List TxEntry) : State :=
  { s with txQueue := rest, current := some e, radioState := .preamble }

/-- R192: the preamble is over. -/
def State.goOnAir (s : State) : State := { s with radioState := .tx }

/-- R193, R195: the radio returns to reception. -/
def State.endTx (s : State) : State := { s with radioState := .rx, current := none }

/-- A free value is drawn: the next one is another. -/
def State.drawFree (s : State) : State := { s with freeIndex := s.freeIndex + 1 }

/-- 10_state.md R35: the environment advances the clock. -/
def State.advanceClock (s : State) (ms : Nat) : State := { s with now := s.now + ms }

/-- 70_reset_and_hazards.md R280, R282: every frame is discarded without `TxComplete`. DESIGN CHOICE: the clock is the
environment's, the outputs and the key storage are the host's, the turns to come are the agents' (assumption 11), and a
receive callback that runs when reset strikes has ended, so arbiter events may fire at once (assumption 35). -/
def State.resetBlock (s : State) : State :=
  { State.reset with
    now := s.now, notifications := s.notifications, air := s.air, callerKey := s.callerKey, freeIndex := s.freeIndex,
    inputs := s.inputs }

/-- 10_state.md R36: the entries whose frames the arbiter owns. -/
def State.owned (s : State) : List TxEntry := s.current.toList ++ s.txQueue

/-- 70_reset_and_hazards.md R292: what a breach does to an entry's storage. After a first breach a second one leaves
nothing known of it. -/
def TxEntry.breach (e : TxEntry) (st : FrameStorage) : TxEntry :=
  { e with storage := if e.storage = .intact then st else .freed }

/-- R292, 93_implementation_defined.md U7: the bytes that are going out, the last entry of the air log in `TX`, become any
value (assumption 20). -/
def State.disturbAir (s : State) : State :=
  match s.radioState, s.air.getLast? with
  | .tx, some (.frame channel _) =>
    { s with
      air := s.air.dropLast ++ [.frame channel (Config.strayBytes s.freeIndex)], freeIndex := s.freeIndex + 1 }
  | _, _ => s

/-- R292: the host breaks the ownership rule for the owned frame `slot`, counted with the one on the air first; nothing
happens where there is none. A breach of the frame on the air disturbs the bytes that are going out. -/
def State.breach (s : State) (slot : Nat) (st : FrameStorage) : State :=
  match s.current with
  | none => { s with txQueue := s.txQueue.modify slot fun e => e.breach st }
  | some c =>
    if slot = 0 then State.disturbAir { s with current := some (c.breach st) }
    else { s with txQueue := s.txQueue.modify (slot - 1) fun e => e.breach st }

end Sys2Proof.Machine
end

