-- ==== Sys2Proof/Machine/Aes.lean ====
section
/-! DEFINITION. AES_ENC: AES-128 encryption of one block (41_aes.md R120 to R130). The sixteen bytes of a state stand in
input order: byte `r + 4c` is row `r`, column `c` (R120). -/

namespace Sys2Proof.Machine

/-- R121: multiplication by `x`. -/
def xtime (a : Byte) : Byte := (a <<< 1) ^^^ (if a &&& 0x80 ≠ 0 then 0x1B else 0x00)

/-- R121. -/
def mul2 (a : Byte) : Byte := xtime a

/-- R121. -/
def mul3 (a : Byte) : Byte := xtime a ^^^ a

/-- R122: the table, a row for each high nibble. -/
def sboxRows : List (List Byte) := [
  [0x63, 0x7C, 0x77, 0x7B, 0xF2, 0x6B, 0x6F, 0xC5, 0x30, 0x01, 0x67, 0x2B, 0xFE, 0xD7, 0xAB, 0x76],
  [0xCA, 0x82, 0xC9, 0x7D, 0xFA, 0x59, 0x47, 0xF0, 0xAD, 0xD4, 0xA2, 0xAF, 0x9C, 0xA4, 0x72, 0xC0],
  [0xB7, 0xFD, 0x93, 0x26, 0x36, 0x3F, 0xF7, 0xCC, 0x34, 0xA5, 0xE5, 0xF1, 0x71, 0xD8, 0x31, 0x15],
  [0x04, 0xC7, 0x23, 0xC3, 0x18, 0x96, 0x05, 0x9A, 0x07, 0x12, 0x80, 0xE2, 0xEB, 0x27, 0xB2, 0x75],
  [0x09, 0x83, 0x2C, 0x1A, 0x1B, 0x6E, 0x5A, 0xA0, 0x52, 0x3B, 0xD6, 0xB3, 0x29, 0xE3, 0x2F, 0x84],
  [0x53, 0xD1, 0x00, 0xED, 0x20, 0xFC, 0xB1, 0x5B, 0x6A, 0xCB, 0xBE, 0x39, 0x4A, 0x4C, 0x58, 0xCF],
  [0xD0, 0xEF, 0xAA, 0xFB, 0x43, 0x4D, 0x33, 0x85, 0x45, 0xF9, 0x02, 0x7F, 0x50, 0x3C, 0x9F, 0xA8],
  [0x51, 0xA3, 0x40, 0x8F, 0x92, 0x9D, 0x38, 0xF5, 0xBC, 0xB6, 0xDA, 0x21, 0x10, 0xFF, 0xF3, 0xD2],
  [0xCD, 0x0C, 0x13, 0xEC, 0x5F, 0x97, 0x44, 0x17, 0xC4, 0xA7, 0x7E, 0x3D, 0x64, 0x5D, 0x19, 0x73],
  [0x60, 0x81, 0x4F, 0xDC, 0x22, 0x2A, 0x90, 0x88, 0x46, 0xEE, 0xB8, 0x14, 0xDE, 0x5E, 0x0B, 0xDB],
  [0xE0, 0x32, 0x3A, 0x0A, 0x49, 0x06, 0x24, 0x5C, 0xC2, 0xD3, 0xAC, 0x62, 0x91, 0x95, 0xE4, 0x79],
  [0xE7, 0xC8, 0x37, 0x6D, 0x8D, 0xD5, 0x4E, 0xA9, 0x6C, 0x56, 0xF4, 0xEA, 0x65, 0x7A, 0xAE, 0x08],
  [0xBA, 0x78, 0x25, 0x2E, 0x1C, 0xA6, 0xB4, 0xC6, 0xE8, 0xDD, 0x74, 0x1F, 0x4B, 0xBD, 0x8B, 0x8A],
  [0x70, 0x3E, 0xB5, 0x66, 0x48, 0x03, 0xF6, 0x0E, 0x61, 0x35, 0x57, 0xB9, 0x86, 0xC1, 0x1D, 0x9E],
  [0xE1, 0xF8, 0x98, 0x11, 0x69, 0xD9, 0x8E, 0x94, 0x9B, 0x1E, 0x87, 0xE9, 0xCE, 0x55, 0x28, 0xDF],
  [0x8C, 0xA1, 0x89, 0x0D, 0xBF, 0xE6, 0x42, 0x68, 0x41, 0x99, 0x2D, 0x0F, 0xB0, 0x54, 0xBB, 0x16]]

/-- R122: row the high nibble, column the low nibble. -/
def sbox (a : Byte) : Byte := (sboxRows.getD (a.toNat / 16) []).getD (a.toNat % 16) 0

/-- R126. -/
def rcon : List Byte := [0x01, 0x02, 0x04, 0x08, 0x10, 0x20, 0x40, 0x80, 0x1B, 0x36]

/-- R123. -/
def subBytes (s : List Byte) : List Byte := s.map sbox

/-- R124: which byte of the old state comes to each place. -/
def shiftRowsSource : List Nat := [0, 5, 10, 15, 4, 9, 14, 3, 8, 13, 2, 7, 12, 1, 6, 11]

/-- R124. -/
def shiftRows (s : List Byte) : List Byte := shiftRowsSource.map fun i => s.getD i 0

/-- R125: one column. -/
def mixColumn (a0 a1 a2 a3 : Byte) : List Byte :=
  [mul2 a0 ^^^ mul3 a1 ^^^ a2 ^^^ a3,
    a0 ^^^ mul2 a1 ^^^ mul3 a2 ^^^ a3,
    a0 ^^^ a1 ^^^ mul2 a2 ^^^ mul3 a3,
    mul3 a0 ^^^ a1 ^^^ a2 ^^^ mul2 a3]

/-- R125: column by column. -/
def mixColumns : List Byte → List Byte
  | a0 :: a1 :: a2 :: a3 :: rest => mixColumn a0 a1 a2 a3 ++ mixColumns rest
  | _ => []

/-- R127. -/
def addRoundKey (s k : List Byte) : List Byte := List.zipWith (· ^^^ ·) s k

/-- R126: a word of the key schedule, a 4-byte string. -/
structure KeyWord where
  b0 : Byte
  b1 : Byte
  b2 : Byte
  b3 : Byte
deriving DecidableEq, Repr

/-- Byte-wise XOR of two words. -/
def KeyWord.xor (u v : KeyWord) : KeyWord := ⟨u.b0 ^^^ v.b0, u.b1 ^^^ v.b1, u.b2 ^^^ v.b2, u.b3 ^^^ v.b3⟩

/-- R126: RotWord. -/
def KeyWord.rotate (t : KeyWord) : KeyWord := ⟨t.b1, t.b2, t.b3, t.b0⟩

/-- R126: SubWord. -/
def KeyWord.substitute (t : KeyWord) : KeyWord := ⟨sbox t.b0, sbox t.b1, sbox t.b2, sbox t.b3⟩

/-- The bytes of a word. -/
def KeyWord.bytes (t : KeyWord) : List Byte := [t.b0, t.b1, t.b2, t.b3]

/-- Word `i` of a list of words. -/
def wordAt (ws : List KeyWord) (i : Nat) : KeyWord := ws.getD i ⟨0, 0, 0, 0⟩

/-- R126: what is XORed onto `w[i-4]` to give `w[i]`. -/
def scheduleTerm (previous : KeyWord) (i : Nat) : KeyWord :=
  if i % 4 = 0 then
    let t := previous.rotate.substitute
    { t with b0 := t.b0 ^^^ rcon.getD (i / 4 - 1) 0 }
  else previous

/-- R126: the four words of a key. -/
def keyWords (key : Bytes 16) : List KeyWord :=
  (List.range 4).map fun i => ⟨key.get (4 * i), key.get (4 * i + 1), key.get (4 * i + 2), key.get (4 * i + 3)⟩

/-- R126: the first `4 + n` words of the schedule. -/
def schedule (key : Bytes 16) : Nat → List KeyWord
  | 0 => keyWords key
  | n + 1 =>
    schedule key n ++ [(wordAt (schedule key n) n).xor (scheduleTerm (wordAt (schedule key n) (n + 3)) (n + 4))]

/-- R126: round key `r`, words `4r` to `4r + 3`. -/
def roundKey (ws : List KeyWord) (r : Nat) : List Byte :=
  (wordAt ws (4 * r)).bytes ++ (wordAt ws (4 * r + 1)).bytes ++ (wordAt ws (4 * r + 2)).bytes ++
    (wordAt ws (4 * r + 3)).bytes

/-- R130: the state after `r` full rounds. -/
def rounds (ws : List KeyWord) (block : List Byte) : Nat → List Byte
  | 0 => addRoundKey block (roundKey ws 0)
  | r + 1 => addRoundKey (mixColumns (shiftRows (subBytes (rounds ws block r)))) (roundKey ws (r + 1))

/-- R130: nine full rounds, and a last one without MixColumns. -/
def aesBytes (key : Bytes 16) (block : List Byte) : List Byte :=
  addRoundKey (shiftRows (subBytes (rounds (schedule key 40) block 9))) (roundKey (schedule key 40) 10)

/-- R130: the sixteen bytes of the encryption. -/
def aes (key block : Bytes 16) : Bytes 16 :=
  ⟨aesBytes key block.data, by
    simp [aesBytes, addRoundKey, shiftRows, shiftRowsSource, roundKey, KeyWord.bytes]⟩

/-- R130. -/
def execAesEnc (key block : Bytes 16) (s : State) : Host.Outcome State Fault Refusal :=
  .next (s.finish (.block (aes key block)))

end Sys2Proof.Machine
end

