-- ==== Sys2Proof/Machine/Constants.lean ====
section
/-! DEFINITION. The constants of 10_state.md R20 and R21, and the wire constants of 30_encoding.md R90. None can be
written; SBOX and RCON stand beside the cipher. -/

namespace Sys2Proof.Machine

/-- 10_state.md R21: the public key of every key wrap. -/
def transferKey : Bytes 16 :=
  ⟨[0x34, 0xC3, 0x46, 0x6E, 0xD8, 0x8F, 0x4E, 0x8E, 0x16, 0xAA, 0x47, 0x39, 0x49, 0x88, 0x43, 0x73], rfl⟩

/-- R20 `IV_PAD`. -/
def ivPad : Byte := 0x55

/-- R20 `CKS_K1`. -/
def cksK1 : Byte := 0x55

/-- R20 `CKS_K2`. -/
def cksK2 : Byte := 0x5B

/-- R20 `CRC_POLY`: the reflected form of `0x1021`. -/
def crcPoly : Half := 0x8408

/-- R20 `CRC_INIT`. -/
def crcInit : Half := 0x0000

/-- R20 `BROADCAST_ADDR`; the block never compares addresses. -/
def broadcastAddr : Bytes 3 := ⟨[0x00, 0x00, 0x3B], rfl⟩

/-- R20 `HEADER_LEN`: the bytes before the payload. -/
def headerLen : Nat := 9

/-- R20 `PAYLOAD_MAX`. -/
def payloadMax : Nat := 21

/-- 00_scope.md R7 `ADDR_ORDER`: which address comes first on the wire. -/
inductive AddrOrder
  | sourceFirst
  | targetFirst
deriving DecidableEq, Repr

/-- R7: `ADDR_ORDER` is decided as source first (30_encoding.md R73; assumption 19). -/
def addrOrder : AddrOrder := .sourceFirst

/-- 30_encoding.md R90: the payload of "status query". -/
def statusQueryPayload : List Byte := [0x03, 0x00, 0x00]

/-- R90: the payload of "learning mode". -/
def learningModePayload : List Byte := [0x02]

/-- 46_host_contract.md R236: the payload of plug ON, an opaque wire constant. -/
def plugOnPayload : Bytes 6 := ⟨[0x01, 0xE7, 0x00, 0x00, 0x00, 0x00], rfl⟩

/-- R236: the payload of plug OFF. -/
def plugOffPayload : Bytes 6 := ⟨[0x01, 0xE7, 0xC8, 0x00, 0x00, 0x00], rfl⟩

end Sys2Proof.Machine
end

