-- ==== Sys2Proof/Machine/Flags.lean ====
section
/-! DEFINITION. The block has no condition codes (10_state.md R27). Its flags are the bits of a frame's two control bytes:
the fields of `ctrl1` (30_encoding.md R72) and the flags of `ctrl2` that the wake-up commands set (R74, R90). -/

namespace Sys2Proof.Machine

/-- R72: `ctrl1 = msgLen | (protocol << 5) | (startFrame << 6) | (endFrame << 7)`. -/
def ctrl1 (msgLen : Nat) (protocol startFrame endFrame : BitVec 1) : Byte :=
  BitVec.ofNat 8 msgLen ||| (protocol.zeroExtend 8 <<< 5) ||| (startFrame.zeroExtend 8 <<< 6) |||
    (endFrame.zeroExtend 8 <<< 7)

/-- R72: bits 4:0 of `ctrl1`. -/
def ctrl1MsgLen (c : Byte) : Nat := (c &&& 0x1F).toNat

/-- R72: bit 5 of `ctrl1`. -/
def ctrl1Protocol (c : Byte) : BitVec 1 := c.extractLsb' 5 1

/-- R72: bit 6 of `ctrl1`. -/
def ctrl1StartFrame (c : Byte) : BitVec 1 := c.extractLsb' 6 1

/-- R72: bit 7 of `ctrl1`. -/
def ctrl1EndFrame (c : Byte) : BitVec 1 := c.extractLsb' 7 1

/-- The byte whose one set bit is bit `i`. -/
def bitMask (i : Fin 8) : Byte := 1#8 <<< i.val

/-- R74, R90: `ctrl2` with `LPM = 1`. The place of the flag is open (R7, assumption 18). -/
def setLpm (ctrl2 : Byte) : Byte := ctrl2 ||| bitMask Config.lpmBit

/-- R74, R90: `ctrl2` with `Prio = 1`. -/
def setPrio (ctrl2 : Byte) : Byte := ctrl2 ||| bitMask Config.prioBit

end Sys2Proof.Machine
end

