-- ==== Sys2Proof/Machine/Operands.lean ====
section
/-! DEFINITION. The byte strings and records that operations build from their operands: initial values (30_encoding.md
R78, R79, R80), the running checksum in them (40_checksum_iv.md), and the frame a wire command stands for (R90). -/

namespace Sys2Proof.Machine

/-- 40_checksum_iv.md R101: one step of the running checksum. -/
def cksStep (byte s1 s2 : Byte) : Byte × Byte :=
  let t := byte ^^^ s2
  let n1 := ((s1 &&& 0x7F) <<< 1) ||| (t >>> 7)
  let n2 := t <<< 1
  if s1 &&& 0x80 ≠ 0 then (n1 ^^^ cksK1, n2 ^^^ cksK2) else (n1, n2)

/-- R104: the checksum of a whole string, from `(0, 0)`. -/
def cks (frameData : List Byte) : Byte × Byte :=
  frameData.foldl (fun s b => cksStep b s.1 s.2) (0, 0)

/-- R78: bytes 0..7 of an initial value: the first eight bytes of `frame_data`, padded with `0x55` if shorter. -/
def ivPrefix (frameData : List Byte) : List Byte :=
  (List.range 8).map fun i => frameData.getD i ivPad

/-- R78: bytes 8..9 of an initial value: the checksum of all of `frame_data`. -/
def ivChecksum (frameData : List Byte) : List Byte := [(cks frameData).1, (cks frameData).2]

/-- R105: the 2W initial value. -/
def iv2w (frameData : List Byte) (challenge : Bytes 6) : Bytes 16 :=
  ⟨ivPrefix frameData ++ ivChecksum frameData ++ challenge.data, by simp [ivPrefix, ivChecksum, challenge.size]⟩

/-- R108: the 1W initial value: the sequence, then four bytes `0x55`. -/
def iv1w (frameData : List Byte) (sequence : Bytes 2) : Bytes 16 :=
  ⟨ivPrefix frameData ++ ivChecksum frameData ++ sequence.data ++ List.replicate 4 ivPad,
    by simp [ivPrefix, ivChecksum, sequence.size]⟩

/-- R80: the address initial value: `iv[i] = node_address[i mod 3]`. -/
def addressIv (nodeAddress : Bytes 3) : Bytes 16 :=
  ⟨(List.range 16).map fun i => nodeAddress.get (i % 3), by simp⟩

/-- The frame with a header, a command byte and a payload. -/
def headedFrame (h : FrameHeader) (cmd : Byte) (payload : List Byte) : Frame where
  protocol := h.protocol
  startFrame := h.startFrame
  endFrame := h.endFrame
  ctrl2 := h.ctrl2
  source := h.source
  target := h.target
  cmd := cmd
  payload := payload

/-- R90 "C → broadcast": the frame goes to the broadcast address. -/
def broadcastFrame (h : BroadcastHeader) (cmd : Byte) (payload : List Byte) : Frame where
  protocol := h.protocol
  startFrame := h.startFrame
  endFrame := h.endFrame
  ctrl2 := h.ctrl2
  source := h.source
  target := broadcastAddr
  cmd := cmd
  payload := payload

end Sys2Proof.Machine
end

