-- ==== Sys2Proof/Machine/Codec.lean ====
section
/-! DEFINITION. CRC16, CRC_CHECK, FRAME_ENC, FRAME_DEC (44_crc_frame.md). -/

namespace Sys2Proof.Machine

/-- R160: one of the eight shifts of a byte. -/
def crcShift (crc : Half) : Half := if crc &&& 0x0001 ≠ 0 then (crc >>> 1) ^^^ crcPoly else crc >>> 1

/-- R160: one byte. -/
def crcByte (crc : Half) (b : Byte) : Half :=
  crcShift (crcShift (crcShift (crcShift (crcShift (crcShift (crcShift (crcShift (crc ^^^ b.zeroExtend 16))))))))

/-- R160. -/
def crc16 (data : List Byte) : Half := data.foldl crcByte crcInit

/-- R162: the CRC's two bytes, the low byte first. -/
def crcBytes (crc : Half) : List Byte := [crc.extractLsb' 0 8, crc.extractLsb' 8 8]

/-- R163, for a string of two bytes or more: the last two bytes are the CRC of the others. -/
def crcGood (x : List Byte) : Bool :=
  crc16 (x.take (x.length - 2)) ==
    (x.getD (x.length - 2) 0).zeroExtend 16 ||| ((x.getD (x.length - 1) 0).zeroExtend 16 <<< 8)

/-- R163. For a shorter string the spec states no answer: a free value (assumption 21). -/
def crcCheck (x : List Byte) : Bool := if 2 ≤ x.length then crcGood x else Config.crcCheckShort x

/-- 30_encoding.md R73: the two address fields of a frame in wire order. -/
def addressBytes (f : Frame) : List Byte :=
  match addrOrder with
  | .sourceFirst => f.source.data ++ f.target.data
  | .targetFirst => f.target.data ++ f.source.data

/-- 30_encoding.md R70, R165: the bytes before the CRC. -/
def preCrcBytes (f : Frame) : List Byte :=
  [ctrl1 (headerLen - 1 + f.payload.length) f.protocol f.startFrame f.endFrame, f.ctrl2] ++ addressBytes f ++ [f.cmd] ++
    f.payload

/-- R165. -/
def frameEnc (f : Frame) : Except OpError (List Byte) :=
  if payloadMax < f.payload.length then .error (.payloadTooLong f.payload.length)
  else .ok (preCrcBytes f ++ crcBytes (crc16 (preCrcBytes f)))

/-- R167: the record in a frame whose checks passed. -/
def frameFields (x : List Byte) : Frame where
  protocol := ctrl1Protocol (x.getD 0 0)
  startFrame := ctrl1StartFrame (x.getD 0 0)
  endFrame := ctrl1EndFrame (x.getD 0 0)
  ctrl2 := x.getD 1 0
  source := match addrOrder with
    | .sourceFirst => Bytes.slice x 2 3
    | .targetFirst => Bytes.slice x 5 3
  target := match addrOrder with
    | .sourceFirst => Bytes.slice x 5 3
    | .targetFirst => Bytes.slice x 2 3
  cmd := x.getD 8 0
  payload := (x.drop headerLen).take (x.length - 11)

/-- R167: the checks in their order (60_exceptions.md R252), then the record. -/
def frameDec (x : List Byte) : Except OpError Frame :=
  if x.length < 11 then .error (.tooShort x.length)
  else if crcGood x = false then .error .badCrc
  else if payloadMax < x.length - 11 then .error (.payloadTooLong (x.length - 11))
  else if ctrl1MsgLen (x.getD 0 0) ≠ x.length - 3 then .error (.lengthMismatch (ctrl1MsgLen (x.getD 0 0)) x.length)
  else .ok (frameFields x)

/-- R160. -/
def execCrc16 (data : List Byte) (s : State) : Host.Outcome State Fault Refusal :=
  .next (s.finish (.crc (crc16 data)))

/-- R163. -/
def execCrcCheck (bytes : List Byte) (s : State) : Host.Outcome State Fault Refusal :=
  .next (s.finish (.check (crcCheck bytes)))

/-- R165: the result or the error, nothing else. -/
def encodeFrame (f : Frame) (s : State) : State :=
  match frameEnc f with
  | .error e => s.raise e
  | .ok bytes => s.finish (.encoded bytes)

/-- R167: the record or the error, nothing else. -/
def decodeFrame (x : List Byte) (s : State) : State :=
  match frameDec x with
  | .error e => s.raise e
  | .ok f => s.finish (.decoded f)

/-- R165. -/
def execFrameEnc (frame : Frame) (s : State) : Host.Outcome State Fault Refusal :=
  .next (encodeFrame frame s)

/-- R167. -/
def execFrameDec (bytes : List Byte) (s : State) : Host.Outcome State Fault Refusal :=
  .next (decodeFrame bytes s)

end Sys2Proof.Machine
end

