-- ==== Sys2Proof/Machine/Arbiter.lean ====
section
/-! DEFINITION. The half-duplex radio arbiter (45_radio_arbiter.md): SEND, ON_RECEIVE and the five events. An event that is
not enabled does nothing. -/

namespace Sys2Proof.Machine

/-- R183: the entry that SEND makes. -/
def newEntry (now : Nat) (f : Frame) (bytes : List Byte) (o : SendOpts) : TxEntry where
  frame := f
  bytes := bytes
  opts := o
  dueAt := now + o.delayed
  repeatsLeft := o.repeatCount
  firstDone := false
  storage := .intact

/-- R183: the radio-state gate (R182), the queue-depth gate, the encoding, in this order (60_exceptions.md R252). -/
def sendFrame (f : Frame) (o : SendOpts) (s : State) : State :=
  if s.radioState = .tx ∨ s.radioState = .preamble then s.raise .radioBusy
  else if s.txQueue.length = Config.txqDepth then s.raise .radioBusy
  else match frameEnc f with
    | .error e => s.raise e
    | .ok bytes => (s.enqueue (newEntry s.now f bytes o)).finish .accepted

/-- R183. -/
def execSend (frame : Frame) (opts : SendOpts) (s : State) : Host.Outcome State Fault Refusal :=
  .next (sendFrame frame opts s)

/-- R186: a second call replaces the first callback. -/
def execOnReceive (callback : Nat) (s : State) : Host.Outcome State Fault Refusal :=
  .next ((s.setCallback callback).finish .nothing)

/-- R190: the oldest entry that is due, and the queue without it. -/
def oldestDue (now : Nat) : List TxEntry → Option (TxEntry × List TxEntry)
  | [] => none
  | e :: rest =>
    if e.dueAt ≤ now then some (e, rest)
    else match oldestDue now rest with
      | none => none
      | some (d, rest) => some (d, e :: rest)

/-- R194 (a): a locked entry at the head that waits for its next repeat holds back every other entry. -/
def holdsBack (e : TxEntry) : Bool := e.opts.lock && e.firstDone

/-- R190: the entry that `StartTx` takes. -/
def eligible (now : Nat) : List TxEntry → Option (TxEntry × List TxEntry)
  | [] => none
  | e :: rest =>
    if holdsBack e then (if e.dueAt ≤ now then some (e, rest) else none) else oldestDue now (e :: rest)

/-- R190 `StartTx`: from `RX`, the oldest eligible entry goes on the air with the preamble its options name. -/
def startTx (s : State) : State :=
  if s.radioState = .rx then
    match eligible s.now s.txQueue with
    | none => s
    | some (e, rest) => (s.emit (.preamble e.opts.frequency e.opts.shortPreamble)).beginTx e rest
  else s

/-- 93_implementation_defined.md U7: the frame reported after a breach of the ownership rule is any value. -/
def strayFrame (n : Nat) : Frame where
  protocol := (Config.strayHeaderByte n 0).extractLsb' 0 1
  startFrame := (Config.strayHeaderByte n 1).extractLsb' 0 1
  endFrame := (Config.strayHeaderByte n 2).extractLsb' 0 1
  ctrl2 := Config.strayHeaderByte n 3
  source := ⟨[Config.strayHeaderByte n 4, Config.strayHeaderByte n 5, Config.strayHeaderByte n 6], rfl⟩
  target := ⟨[Config.strayHeaderByte n 7, Config.strayHeaderByte n 8, Config.strayHeaderByte n 9], rfl⟩
  cmd := Config.strayHeaderByte n 10
  payload := Config.strayPayload n

/-- 70_reset_and_hazards.md R292: the bytes that go out. Encoded at SEND if the host kept its hands off; the old or the
new ones, either, if it changed the record; any bytes if it freed the storage, or if the changed record has no
encoding. -/
def sentBytes (n : Nat) (e : TxEntry) : List Byte :=
  match e.storage with
  | .intact => e.bytes
  | .changed f =>
    if Config.keepsOldBytes n then e.bytes
    else match frameEnc f with
      | .ok bytes => bytes
      | .error _ => Config.strayBytes n
  | .freed => Config.strayBytes n

/-- R193, R292: the frame that `TxComplete` reports. -/
def reportedFrame (n : Nat) (e : TxEntry) : Frame :=
  match e.storage with
  | .intact => e.frame
  | .changed _ | .freed => strayFrame n

/-- An entry whose storage the host left alone draws no free value. -/
def State.drawFor (s : State) (e : TxEntry) : State := if e.storage = .intact then s else s.drawFree

/-- R192 `PreambleDone`: the bytes go on the air. -/
def preambleDone (s : State) : State :=
  match s.radioState, s.current with
  | .preamble, some e => ((s.emit (.frame e.opts.frequency (sentBytes s.freeIndex e))).drawFor e).goOnAir
  | _, _ => s

/-- R194 `RepeatsContinue(e)`, with the queue at `TxDone`. -/
def repeatsContinue (e : TxEntry) (queue : List TxEntry) : Bool :=
  e.opts.lock || queue.isEmpty || Config.unlockedRepeatPolicy == .goOn

/-- R193: the entry as it waits for its next repeat. -/
def repeated (now : Nat) (e : TxEntry) : TxEntry :=
  { e with repeatsLeft := e.repeatsLeft - 1, firstDone := true, dueAt := now + e.opts.repeatTime }

/-- R193, R195: the entry's one completion report; ownership of its frame ends. -/
def complete (s : State) (e : TxEntry) (status : TxStatus) : State :=
  ((s.notify (.txComplete (reportedFrame s.freeIndex e) status)).drawFor e).endTx

/-- R193 `TxDone`: the radio is back in `RX`; the entry waits for a repeat, or is reported transmitted. -/
def txDone (s : State) : State :=
  match s.radioState, s.current with
  | .tx, some e =>
    if 0 < e.repeatsLeft ∧ repeatsContinue e s.txQueue then s.endTx.requeue (repeated s.now e)
    else complete s e .transmitted
  | _, _ => s

/-- R195 `TxFail`: enabled in `PREAMBLE` and `TX`; the remaining repeats are not attempted. -/
def txFail (s : State) : State :=
  match s.radioState, s.current with
  | .preamble, some e => complete s e .failed
  | .tx, some e => complete s e .failed
  | _, _ => s

/-- R198 `RxFrame(x)`: decoded, and handed to the callback if there is one; dropped without trace otherwise. Enabled in
`RX` only, and not while the callback runs (60_exceptions.md R259). -/
def rxFrame (x : List Byte) (s : State) : State :=
  if s.radioState = .rx ∧ s.running = none then
    match frameDec x, s.rxCallback with
    | .ok f, some callback => s.enterCallback callback f
    | _, _ => s
  else s

end Sys2Proof.Machine
end

