-- ==== Sys2Proof/Machine/Checksum.lean ====
section
/-! DEFINITION. CKS_STEP, CKS, IV2W, IV1W (40_checksum_iv.md). Pure: they write nothing but their result (10_state.md
R22). -/

namespace Sys2Proof.Machine

/-- R101. -/
def execCksStep (byte s1 s2 : Byte) (s : State) : Host.Outcome State Fault Refusal :=
  .next (s.finish (.checksum (cksStep byte s1 s2).1 (cksStep byte s1 s2).2))

/-- R104. -/
def execCks (frameData : List Byte) (s : State) : Host.Outcome State Fault Refusal :=
  .next (s.finish (.checksum (cks frameData).1 (cks frameData).2))

/-- R105. -/
def execIv2w (frameData : List Byte) (challenge : Bytes 6) (s : State) : Host.Outcome State Fault Refusal :=
  .next (s.finish (.block (iv2w frameData challenge)))

/-- R108. -/
def execIv1w (frameData : List Byte) (sequence : Bytes 2) (s : State) : Host.Outcome State Fault Refusal :=
  .next (s.finish (.block (iv1w frameData sequence)))

end Sys2Proof.Machine
end

