-- ==== Sys2Proof/Machine/Commands.lean ====
section
/-! DEFINITION. The wire command bytes (30_encoding.md R90). The block does not know them (R76): a command's meaning is what
the block does with the frame that carries it. A command "C → P" or "C → broadcast" is a frame the host builds and SENDs
(R86, 45_radio_arbiter.md R183); a command "P → C" is a frame that arrives on the air (R198); one that goes both ways, or
whose direction the catalog does not give, is the one or the other by its operand (assumption 4). -/

namespace Sys2Proof.Machine

/-- A peer's frame arrives: its bytes are its encoding. A record with no encoding is no frame of this link, and FRAME_DEC
refuses whatever else arrives (30_encoding.md R75): nothing happens (assumption 28). -/
def receiveFrame (f : Frame) (s : State) : State :=
  match frameEnc f with
  | .ok bytes => rxFrame bytes s
  | .error _ => s

/-- A frame that goes both ways. -/
def passFrame (f : Frame) (p : Passage) (s : State) : State :=
  match p with
  | .send o => sendFrame f o s
  | .receive => receiveFrame f s

/-- R90 `0x00`: the actuator command of plug ON and plug OFF, six bytes. -/
def execCmd00 (header : FrameHeader) (payload : Bytes 6) (opts : SendOpts) (s : State) : Host.Outcome State Fault Refusal :=
  .next (sendFrame (headedFrame header 0x00 payload.data) opts s)

/-- R90 `0x03`: status query, `03 00 00`. -/
def execCmd03 (header : FrameHeader) (opts : SendOpts) (s : State) : Host.Outcome State Fault Refusal :=
  .next (sendFrame (headedFrame header 0x03 statusQueryPayload) opts s)

/-- R90 `0x04`: status; the payload is not given. -/
def execCmd04 (header : FrameHeader) (payload : List Byte) (s : State) : Host.Outcome State Fault Refusal :=
  .next (receiveFrame (headedFrame header 0x04 payload) s)

/-- R90 `0x28`: wake and discovery: no payload, broadcast, long preamble, `LPM=1`, `Prio=1`. The delay ("≈250 ms") is the
host's option (assumption 23). -/
def execCmd28 (header : BroadcastHeader) (opts : SendOpts) (s : State) : Host.Outcome State Fault Refusal :=
  .next (sendFrame (broadcastFrame { header with ctrl2 := setPrio (setLpm header.ctrl2) } 0x28 [])
    { opts with shortPreamble := false } s)

/-- R90 `0x29`: discovery response, nine bytes. -/
def execCmd29 (header : FrameHeader) (payload : Bytes 9) (s : State) : Host.Outcome State Fault Refusal :=
  .next (receiveFrame (headedFrame header 0x29 payload.data) s)

/-- R90 `0x2A`: legacy pairing broadcast, twelve opaque bytes. -/
def execCmd2A (header : BroadcastHeader) (payload : Bytes 12) (opts : SendOpts) (s : State) : Host.Outcome State Fault Refusal :=
  .next (sendFrame (broadcastFrame header 0x2A payload.data) opts s)

/-- R90 `0x2C`: alive check, the request. -/
def execCmd2C (header : FrameHeader) (opts : SendOpts) (s : State) : Host.Outcome State Fault Refusal :=
  .next (sendFrame (headedFrame header 0x2C []) opts s)

/-- R90 `0x2D`: alive check, the response. -/
def execCmd2D (header : FrameHeader) (s : State) : Host.Outcome State Fault Refusal :=
  .next (receiveFrame (headedFrame header 0x2D []) s)

/-- R90 `0x2E`: learning mode, one byte `0x02`. -/
def execCmd2E (header : FrameHeader) (opts : SendOpts) (s : State) : Host.Outcome State Fault Refusal :=
  .next (sendFrame (headedFrame header 0x2E learningModePayload) opts s)

/-- R90 `0x2F`: pairing confirmation, one status byte. -/
def execCmd2F (header : FrameHeader) (status : Byte) (s : State) : Host.Outcome State Fault Refusal :=
  .next (receiveFrame (headedFrame header 0x2F [status]) s)

/-- R90 `0x30`: the 1W key push: the wrapped key, then the 1W trailer. The frame layout of 1W is out of scope (R75): the codec
takes the trailer as payload, and refuses the frame when that makes it too long. -/
def execCmd30 (header : FrameHeader) (wrapped : Bytes 16) (trailer : List Byte) (passage : Passage) (s : State) : Host.Outcome State Fault Refusal :=
  .next (passFrame (headedFrame header 0x30 (wrapped.data ++ trailer)) passage s)

/-- R90 `0x31`: ask challenge. -/
def execCmd31 (header : FrameHeader) (opts : SendOpts) (s : State) : Host.Outcome State Fault Refusal :=
  .next (sendFrame (headedFrame header 0x31 []) opts s)

/-- R90 `0x32`: encrypted key transfer, the wrapped key. -/
def execCmd32 (header : FrameHeader) (wrapped : Bytes 16) (opts : SendOpts) (s : State) : Host.Outcome State Fault Refusal :=
  .next (sendFrame (headedFrame header 0x32 wrapped.data) opts s)

/-- R90 `0x33`: key-transfer acknowledge. -/
def execCmd33 (header : FrameHeader) (s : State) : Host.Outcome State Fault Refusal :=
  .next (receiveFrame (headedFrame header 0x33 []) s)

/-- R90 `0x36`: priority address request, `Prio=1`. -/
def execCmd36 (header : FrameHeader) (opts : SendOpts) (s : State) : Host.Outcome State Fault Refusal :=
  .next (sendFrame (headedFrame { header with ctrl2 := setPrio header.ctrl2 } 0x36 []) opts s)

/-- R90 `0x37`: priority address response, three bytes. -/
def execCmd37 (header : FrameHeader) (address : Bytes 3) (s : State) : Host.Outcome State Fault Refusal :=
  .next (receiveFrame (headedFrame header 0x37 address.data) s)

/-- R90 `0x38`: not in the catalog; six challenge bytes by vector 2. -/
def execCmd38 (header : FrameHeader) (challenge : Bytes 6) (passage : Passage) (s : State) : Host.Outcome State Fault Refusal :=
  .next (passFrame (headedFrame header 0x38 challenge.data) passage s)

/-- R90 `0x3C`: challenge, six bytes. -/
def execCmd3C (header : FrameHeader) (challenge : Bytes 6) (passage : Passage) (s : State) : Host.Outcome State Fault Refusal :=
  .next (passFrame (headedFrame header 0x3C challenge.data) passage s)

/-- R90 `0x3D`: challenge response, the six bytes of a MAC. -/
def execCmd3D (header : FrameHeader) (mac : Bytes 6) (passage : Passage) (s : State) : Host.Outcome State Fault Refusal :=
  .next (passFrame (headedFrame header 0x3D mac.data) passage s)

/-- R90 `0x50`: name request. -/
def execCmd50 (header : FrameHeader) (opts : SendOpts) (s : State) : Host.Outcome State Fault Refusal :=
  .next (sendFrame (headedFrame header 0x50 []) opts s)

/-- R90 `0x51`: the name, sixteen bytes. -/
def execCmd51 (header : FrameHeader) (name : Bytes 16) (s : State) : Host.Outcome State Fault Refusal :=
  .next (receiveFrame (headedFrame header 0x51 name.data) s)

/-- R90 `0x54`: General Info 1 request. -/
def execCmd54 (header : FrameHeader) (opts : SendOpts) (s : State) : Host.Outcome State Fault Refusal :=
  .next (sendFrame (headedFrame header 0x54 []) opts s)

/-- R90 `0x55`: General Info 1, fourteen bytes. -/
def execCmd55 (header : FrameHeader) (info : Bytes 14) (s : State) : Host.Outcome State Fault Refusal :=
  .next (receiveFrame (headedFrame header 0x55 info.data) s)

/-- R90 `0x56`: General Info 2 request. -/
def execCmd56 (header : FrameHeader) (opts : SendOpts) (s : State) : Host.Outcome State Fault Refusal :=
  .next (sendFrame (headedFrame header 0x56 []) opts s)

/-- R90 `0x57`: General Info 2, sixteen bytes. -/
def execCmd57 (header : FrameHeader) (info : Bytes 16) (s : State) : Host.Outcome State Fault Refusal :=
  .next (receiveFrame (headedFrame header 0x57 info.data) s)

/-- R90 `0xFE`: error or status, at least one byte. -/
def execCmdFE (header : FrameHeader) (status : Byte) (more : List Byte) (s : State) : Host.Outcome State Fault Refusal :=
  .next (receiveFrame (headedFrame header 0xFE (status :: more)) s)

end Sys2Proof.Machine
end

