-- ==== Sys2Proof/Machine/KeyWrap.lean ====
section
/-! DEFINITION. WRAP2W, UNWRAP2W, WRAP1W, UNWRAP1W (42_keywrap.md). -/

namespace Sys2Proof.Machine

/-- R140: the encryption of the 2W initial value under the public transfer key, XORed onto the key. -/
def wrap2w (key : Bytes 16) (challenge : Bytes 6) (frameData : List Byte) : Bytes 16 :=
  (aes transferKey (iv2w frameData challenge)).xor key

/-- R145: the same with the address initial value. -/
def wrap1w (nodeAddress : Bytes 3) (key : Bytes 16) : Bytes 16 :=
  (aes transferKey (addressIv nodeAddress)).xor key

/-- R140. -/
def execWrap2w (key : Bytes 16) (challenge : Bytes 6) (frameData : List Byte) (s : State) :
    Host.Outcome State Fault Refusal :=
  .next (s.finish (.block (wrap2w key challenge frameData)))

/-- R141: the receiver's inverse is the same function. -/
def execUnwrap2w (wrapped : Bytes 16) (challenge : Bytes 6) (frameData : List Byte) (s : State) :
    Host.Outcome State Fault Refusal :=
  .next (s.finish (.block (wrap2w wrapped challenge frameData)))

/-- R145: the result, which also overwrites the caller's key storage (20_memory.md R51 (b)). -/
def execWrap1w (nodeAddress : Bytes 3) (key : Bytes 16) (s : State) : Host.Outcome State Fault Refusal :=
  .next ((s.storeCallerKey (wrap1w nodeAddress key)).finish (.block (wrap1w nodeAddress key)))

/-- R147: UNWRAP1W is WRAP1W. -/
def execUnwrap1w (nodeAddress : Bytes 3) (key : Bytes 16) (s : State) : Host.Outcome State Fault Refusal :=
  .next ((s.storeCallerKey (wrap1w nodeAddress key)).finish (.block (wrap1w nodeAddress key)))

end Sys2Proof.Machine
end

