-- ==== Sys2Proof/Machine/Mac.lean ====
section
/-! DEFINITION. MAC2W, MAC1W (43_mac.md): the first six bytes of the encryption; the other ten never leave the block
(70_reset_and_hazards.md R298). -/

namespace Sys2Proof.Machine

/-- R150. -/
def mac2w (challenge : Bytes 6) (key : Bytes 16) (frameData : List Byte) : Bytes 6 :=
  (aes key (iv2w frameData challenge)).first 6 (by decide)

/-- R154. -/
def mac1w (sequence : Bytes 2) (key : Bytes 16) (frameData : List Byte) : Bytes 6 :=
  (aes key (iv1w frameData sequence)).first 6 (by decide)

/-- R150. -/
def execMac2w (challenge : Bytes 6) (key : Bytes 16) (frameData : List Byte) (s : State) :
    Host.Outcome State Fault Refusal :=
  .next (s.finish (.mac (mac2w challenge key frameData)))

/-- R154. -/
def execMac1w (sequence : Bytes 2) (key : Bytes 16) (frameData : List Byte) (s : State) :
    Host.Outcome State Fault Refusal :=
  .next (s.finish (.mac (mac1w sequence key frameData)))

end Sys2Proof.Machine
end

