-- ==== Sys2Proof/Machine/SelfTest.lean ====
section
/-! DEFINITION. SELFTEST (60_exceptions.md R270): six reference vectors, recomputed with the block's own operations. -/

namespace Sys2Proof.Machine

/-- R270 vectors 1, 2, 6: the key in clear. -/
def testKeyA : Bytes 16 :=
  ⟨[0x01, 0x02, 0x03, 0x04, 0x05, 0x06, 0x07, 0x08, 0x09, 0x10, 0x11, 0x12, 0x13, 0x14, 0x15, 0x16], rfl⟩

/-- R270 vectors 3, 4: the key. -/
def testKeyB : Bytes 16 :=
  ⟨[0xAB, 0xCD, 0xEF, 0x01, 0x02, 0x03, 0x04, 0x05, 0x06, 0x07, 0x08, 0x09, 0x10, 0x11, 0x12, 0x13], rfl⟩

/-- R270: the challenge of every 2W vector. -/
def testChallenge : Bytes 6 := ⟨[0x12, 0x34, 0x56, 0x78, 0x9A, 0xBC], rfl⟩

/-- R270 vectors 1, 2: the node address. -/
def testAddress : Bytes 3 := ⟨[0xAB, 0xCD, 0xEF], rfl⟩

/-- R270 vector 2: the sequence. -/
def testSequence : Bytes 2 := ⟨[0x12, 0x34], rfl⟩

/-- R270 vector 3: the wrapped key, also the payload of vector 5's frame. -/
def testWrappedB : List Byte :=
  [0xEA, 0x42, 0x5A, 0x7A, 0x18, 0x28, 0x85, 0xD4, 0xEA, 0xEE, 0xFD, 0x41, 0x6D, 0x62, 0x5E, 0x01]

/-- 44_crc_frame.md R165's worked example, R270 vector 5. -/
def testFrame : Frame where
  protocol := 0
  startFrame := 0
  endFrame := 0
  ctrl2 := 0x04
  source := ⟨[0xF0, 0x0F, 0x00], rfl⟩
  target := ⟨[0xFE, 0xEF, 0xEE], rfl⟩
  cmd := 0x32
  payload := testWrappedB

/-- R270: whether each vector comes out, in order. -/
def selfTestChecks : List Bool := [
  (wrap1w testAddress testKeyA).data ==
    [0x7E, 0x60, 0x49, 0x1F, 0x97, 0x6A, 0xDF, 0x65, 0x3D, 0xB0, 0xED, 0x78, 0x5E, 0x49, 0xA2, 0x01],
  (mac1w testSequence testKeyA (0x30 :: (wrap1w testAddress testKeyA).data)).data ==
    [0x19, 0xE8, 0x1E, 0xC4, 0x3D, 0x5E],
  (wrap2w testKeyB testChallenge [0x38, 0x12, 0x34, 0x56, 0x78, 0x9A, 0xBC]).data == testWrappedB,
  (mac2w testChallenge testKeyB
      (0x32 :: (wrap2w testKeyB testChallenge [0x38, 0x12, 0x34, 0x56, 0x78, 0x9A, 0xBC]).data)).data ==
    [0x0A, 0xE5, 0x19, 0xA7, 0x3C, 0x99],
  (frameEnc testFrame).toOption ==
    some ([0x18, 0x04, 0xF0, 0x0F, 0x00, 0xFE, 0xEF, 0xEE, 0x32] ++ testWrappedB ++ [0x63, 0x79]),
  (wrap2w testKeyA testChallenge [0x31]).data ==
    [0x10, 0x2E, 0x49, 0xA1, 0x6D, 0x3B, 0x69, 0x72, 0x6F, 0x31, 0x92, 0xCF, 0x17, 0x53, 0x4A, 0xD9]]

/-- R270: the index of the first vector that did not come out, counted from `i`. -/
def firstFailure (i : Nat) : List Bool → Option Nat
  | [] => none
  | ok :: rest => if ok then firstFailure (i + 1) rest else some i

/-- R270: `Pass`, or the index of the first vector that did not come out. -/
def selfTest (s : State) : State :=
  match firstFailure 1 selfTestChecks with
  | none => s.finish .pass
  | some i => s.raise (.selfTestFail i)

/-- R270. -/
def execSelftest (s : State) : Host.Outcome State Fault Refusal := .next (selfTest s)

end Sys2Proof.Machine
end

