-- ==== Sys2Proof/Machine/Dispatch.lean ====
section
/-! DEFINITION. The meaning of each instruction: one arm for each constructor. -/

namespace Sys2Proof.Machine

def exec (i : Instr) (s : State) : Host.Outcome State Fault Refusal :=
  match i with
  | .cksStep byte s1 s2 => Sys2Proof.Machine.execCksStep byte s1 s2 s
  | .iv2w frameData challenge => Sys2Proof.Machine.execIv2w frameData challenge s
  | .iv1w frameData sequence => Sys2Proof.Machine.execIv1w frameData sequence s
  | .aesEnc key block => Sys2Proof.Machine.execAesEnc key block s
  | .wrap2w key challenge frameData => Sys2Proof.Machine.execWrap2w key challenge frameData s
  | .wrap1w nodeAddress key => Sys2Proof.Machine.execWrap1w nodeAddress key s
  | .mac2w challenge key frameData => Sys2Proof.Machine.execMac2w challenge key frameData s
  | .mac1w sequence key frameData => Sys2Proof.Machine.execMac1w sequence key frameData s
  | .crc16 data => Sys2Proof.Machine.execCrc16 data s
  | .frameEnc frame => Sys2Proof.Machine.execFrameEnc frame s
  | .frameDec bytes => Sys2Proof.Machine.execFrameDec bytes s
  | .send frame opts => Sys2Proof.Machine.execSend frame opts s
  | .onReceive callback => Sys2Proof.Machine.execOnReceive callback s
  | .selftest => Sys2Proof.Machine.execSelftest s
  | .unwrap2w wrapped challenge frameData => Sys2Proof.Machine.execUnwrap2w wrapped challenge frameData s
  | .unwrap1w nodeAddress key => Sys2Proof.Machine.execUnwrap1w nodeAddress key s
  | .crcCheck bytes => Sys2Proof.Machine.execCrcCheck bytes s
  | .cks frameData => Sys2Proof.Machine.execCks frameData s
  | .cmd00 header payload opts => Sys2Proof.Machine.execCmd00 header payload opts s
  | .cmd03 header opts => Sys2Proof.Machine.execCmd03 header opts s
  | .cmd04 header payload => Sys2Proof.Machine.execCmd04 header payload s
  | .cmd28 header opts => Sys2Proof.Machine.execCmd28 header opts s
  | .cmd29 header payload => Sys2Proof.Machine.execCmd29 header payload s
  | .cmd2A header payload opts => Sys2Proof.Machine.execCmd2A header payload opts s
  | .cmd2C header opts => Sys2Proof.Machine.execCmd2C header opts s
  | .cmd2D header => Sys2Proof.Machine.execCmd2D header s
  | .cmd2E header opts => Sys2Proof.Machine.execCmd2E header opts s
  | .cmd2F header status => Sys2Proof.Machine.execCmd2F header status s
  | .cmd30 header wrapped trailer passage => Sys2Proof.Machine.execCmd30 header wrapped trailer passage s
  | .cmd31 header opts => Sys2Proof.Machine.execCmd31 header opts s
  | .cmd32 header wrapped opts => Sys2Proof.Machine.execCmd32 header wrapped opts s
  | .cmd33 header => Sys2Proof.Machine.execCmd33 header s
  | .cmd36 header opts => Sys2Proof.Machine.execCmd36 header opts s
  | .cmd37 header address => Sys2Proof.Machine.execCmd37 header address s
  | .cmd38 header challenge passage => Sys2Proof.Machine.execCmd38 header challenge passage s
  | .cmd3C header challenge passage => Sys2Proof.Machine.execCmd3C header challenge passage s
  | .cmd3D header mac passage => Sys2Proof.Machine.execCmd3D header mac passage s
  | .cmd50 header opts => Sys2Proof.Machine.execCmd50 header opts s
  | .cmd51 header name => Sys2Proof.Machine.execCmd51 header name s
  | .cmd54 header opts => Sys2Proof.Machine.execCmd54 header opts s
  | .cmd55 header info => Sys2Proof.Machine.execCmd55 header info s
  | .cmd56 header opts => Sys2Proof.Machine.execCmd56 header opts s
  | .cmd57 header info => Sys2Proof.Machine.execCmd57 header info s
  | .cmdFE header status more => Sys2Proof.Machine.execCmdFE header status more s

end Sys2Proof.Machine
end

