-- ==== Sys2Proof/Machine/Turns.lean ====
section
/-! DEFINITION. Which turn is next, what a turn does, and how a table row's word becomes a turn. -/

namespace Sys2Proof.Machine

/-- Whether a request stands for a frame that a peer sends. -/
def arrives : Instr → Bool
  | .cmd04 .. | .cmd29 .. | .cmd2D .. | .cmd2F .. | .cmd33 .. | .cmd37 .. | .cmd51 .. | .cmd55 .. | .cmd57 ..
  | .cmdFE .. => true
  | .cmd30 _ _ _ p | .cmd38 _ _ p | .cmd3C _ _ p | .cmd3D _ _ p => p == .receive
  | .cksStep .. | .iv2w .. | .iv1w .. | .aesEnc .. | .wrap2w .. | .wrap1w .. | .mac2w .. | .mac1w .. | .crc16 ..
  | .frameEnc .. | .frameDec .. | .send .. | .onReceive .. | .selftest | .unwrap2w .. | .unwrap1w .. | .crcCheck ..
  | .cks .. | .cmd00 .. | .cmd03 .. | .cmd28 .. | .cmd2A .. | .cmd2C .. | .cmd2E .. | .cmd31 .. | .cmd32 .. | .cmd36 ..
  | .cmd50 .. | .cmd54 .. | .cmd56 .. => false

/-- Whether a turn is an event of the arbiter: one of the transmitter's, or a reception (45_radio_arbiter.md R180). -/
def Turn.isArbiterEvent : Turn → Bool
  | .startTx | .preambleDone | .txDone | .txFail | .rxFrame _ => true
  | .command request =>
    match decodeCommand request with
    | .ok i => arrives i
    | .error _ => false
  | .operation _ | .callbackReturns | .frameChanged .. | .frameFreed _ | .clock _ | .reset => false

/-- The first turn that is no arbiter event, and the other turns in their order. -/
def takeHostTurn : List Turn → Option (Turn × List Turn)
  | [] => none
  | t :: rest =>
    if t.isArbiterEvent then
      match takeHostTurn rest with
      | none => none
      | some (h, rest) => some (h, t :: rest)
    else some (t, rest)

/-- The turn that is next. While the receive callback runs, arbiter events wait for its return (60_exceptions.md
R259). -/
def nextTurn (s : State) : Option (Turn × List Turn) :=
  match s.running with
  | none =>
    match s.inputs with
    | [] => none
    | t :: rest => some (t, rest)
  | some _ => takeHostTurn s.inputs

/-- One turn. An unknown operation code is answered with `UnknownOp` and nothing else happens (30_encoding.md R85);
operands that are not those of R25 are refused (20_memory.md R54). -/
def runTurn (t : Turn) (s : State) : Host.Outcome State Fault Refusal :=
  match t with
  | .operation request =>
    match decodeOperation request with
    | .ok i => exec i s
    | .error (.unknownOp code) => .next (s.raise (.unknownOp code))
    | .error .empty => .refused .malformedRequest
    | .error (.uncatalogued _) => .refused .malformedRequest
    | .error (.malformed _) => .refused .malformedRequest
  | .command request =>
    match decodeCommand request with
    | .ok i => exec i s
    | .error _ => .refused .malformedRequest
  | .callbackReturns => .next s.returnFromCallback
  | .frameChanged slot f => .next (s.breach slot (.changed f))
  | .frameFreed slot => .next (s.breach slot .freed)
  | .startTx => .next (startTx s)
  | .preambleDone => .next (preambleDone s)
  | .txDone => .next (txDone s)
  | .txFail => .next (txFail s)
  | .rxFrame x => .next (rxFrame x s)
  | .clock ms => .next (s.advanceClock ms)
  | .reset => .next s.resetBlock

/-- The turn that runs the instruction of a table row's word. -/
def tableTurn (nbits w : Nat) : Turn :=
  if startsCommand (tableBytes nbits w) then .command (tableBytes nbits w) else .operation (tableBytes nbits w)

end Sys2Proof.Machine
end

