-- ==== Sys2Proof/Machine/Step.lean ====
section
/-! DEFINITION. One step of the machine: the next turn of the interleaving (20_memory.md R60). -/

namespace Sys2Proof.Machine

/-- The next turn leaves the list and runs. A machine with no turn to take waits (10_state.md R38: the host decides which
operation runs next). -/
def step (s : State) : Host.Outcome State Fault Refusal :=
  match nextTurn s with
  | none => .next s
  | some (t, rest) => runTurn t { s with inputs := rest }

/-- The instruction of a table row's word, put before the turns to come. -/
def State.withFetchWord (s : State) (nbits w : Nat) : State := { s with inputs := tableTurn nbits w :: s.inputs }

end Sys2Proof.Machine
end

