-- ==== Sys2Proof/Safety.lean ====
section
/-! DEFINITION. What the claims speak of: the invariant of the arbiter (45_radio_arbiter.md R181), the reports it owes, a
step that completes, a host that keeps the ownership rule (70_reset_and_hazards.md R292), and the fair runs of R196. -/

namespace Sys2Proof.Machine

/-- An entry as SEND and the repeats leave it: its bytes are the encoding of its frame, and it owes as many repeats as its
option says until its first transmission has finished, fewer after. -/
def TxEntry.Sound (e : TxEntry) : Prop :=
  frameEnc e.frame = .ok e.bytes ∧ (e.firstDone = false → e.repeatsLeft = e.opts.repeatCount) ∧
    (e.firstDone = true → e.repeatsLeft < e.opts.repeatCount)

/-- R181 with what keeps it: an entry is on the air exactly when the radio is not in `RX`; the arbiter holds at most
`TXQ_DEPTH` entries, the one on the air among them; every entry is sound; the receive callback runs in `RX` only. -/
def State.Inv (s : State) : Prop :=
  (s.current = none ↔ s.radioState = .rx) ∧ s.owned.length ≤ Config.txqDepth ∧ (∀ e ∈ s.owned, e.Sound) ∧
    (s.running.isSome = true → s.radioState = .rx)

/-- Whether a notification is a completion report. -/
def Notification.isCompletion : Notification → Bool
  | .txComplete .. => true
  | .received .. => false

/-- How many transmissions have been reported complete. -/
def State.completions (s : State) : Nat := s.notifications.countP Notification.isCompletion

/-- The step from this state completes. -/
def State.Completes (s : State) : Prop := ∃ t, step s = .next t

/-- 10_state.md R36: a turn in which the host leaves the frames it handed over alone. -/
def Turn.keepsOwnership : Turn → Bool
  | .frameChanged .. | .frameFreed _ => false
  | .operation _ | .command _ | .callbackReturns | .startTx | .preambleDone | .txDone | .txFail | .rxFrame _ | .clock _
  | .reset => true

/-- R36: every frame the arbiter owns is as the host handed it over. -/
def State.storageIntact (s : State) : Prop := ∀ e ∈ s.owned, e.storage = .intact

/-- The air log ends with the frame on the air: in `TX` its last entry is a frame on the channel of the current entry. -/
def State.AirAgrees (s : State) : Prop :=
  s.radioState = .tx →
    ∃ e log bytes, s.current = some e ∧ s.air = log ++ [.frame e.opts.frequency bytes]

/-- 45_radio_arbiter.md R190, R194 (a): the radio is in `RX`, the entry is queued and due, and no locked entry at the head holds
it back. -/
def State.canStart (s : State) (e : TxEntry) : Prop :=
  s.radioState = .rx ∧ ∃ before after, s.txQueue = before ++ e :: after ∧ e.dueAt ≤ s.now ∧
    ∀ d ∈ before.head?, d.opts.lock = false ∨ d.firstDone = false

/-- R202: the guards of the transmitter's events; no other turn is one. -/
def State.enables (s : State) : Turn → Prop
  | .startTx => ∃ e, s.canStart e
  | .preambleDone => s.radioState = .preamble
  | .txDone => s.radioState = .tx
  | .txFail => s.radioState = .preamble ∨ s.radioState = .tx
  | .operation _ | .command _ | .callbackReturns | .frameChanged .. | .frameFreed _ | .rxFrame _ | .clock _ | .reset => False

/-- An infinite run: at each place the machine steps, or the agents add turns at the end of the list (assumption 31). -/
def IsRun (run : Nat → State) : Prop :=
  ∀ n, step (run n) = .next (run (n + 1)) ∨ ∃ more, run (n + 1) = { run n with inputs := (run n).inputs ++ more }

/-- The run takes the turn at place `n`. -/
def Takes (run : Nat → State) (n : Nat) (turn : Turn) : Prop :=
  (∃ rest, nextTurn (run n) = some (turn, rest)) ∧ step (run n) = .next (run (n + 1))

/-- R196, 92_eei_decisions.md D17: weak fairness of one of the transmitter's events. If its guard holds from some place on, it is
taken after that place. The fairness of R196 is this of every event; of a turn that is no such event it asks nothing. -/
def WeaklyFair (run : Nat → State) (turn : Turn) : Prop :=
  ∀ n, (∀ m, n ≤ m → (run m).enables turn) → ∃ m, n ≤ m ∧ Takes run m turn

end Sys2Proof.Machine
end

