-- ==== Sys2Proof/WellFormed.lean ====
section
/-! DEFINITION. Which operands the spec gives an instruction, beyond what their types say: the length of `frame_data`
(R25, R7 `FD_MAX`), the closed set of channels (R88, R7 `N_CHANNELS`), the payload bound of a frame (R70), the two bytes
that CRC_CHECK needs (R163). No meaning depends on these checks: see assumptions 16 and 17. -/

namespace Sys2Proof

/-- 44_crc_frame.md R169: a well-formed frame record has at most 21 payload bytes. -/
def Frame.wellFormed (f : Frame) : Bool := decide (f.payload.length ≤ 21)

/-- R88: the channel is one of the closed set of names. -/
def SendOpts.wellFormed (o : SendOpts) : Bool := decide (o.frequency < Config.nChannels)

/-- A passage is well formed when its options are, if it has any. -/
def Passage.wellFormed : Passage → Bool
  | .send o => o.wellFormed
  | .receive => true

/-- R25: `frame_data` has at most `FD_MAX` bytes. -/
def frameDataFits (d : List Byte) : Bool := decide (d.length ≤ Config.fdMax)

/-- The checks of one instruction. FRAME_ENC and SEND take a record with any payload: a longer one is an operand they
answer with an error (R165, R183). -/
def Instr.wellFormed : Instr → Bool
  | .cksStep .. | .aesEnc .. | .wrap1w .. | .unwrap1w .. | .crc16 .. | .frameEnc .. | .frameDec .. | .onReceive ..
  | .selftest => true
  | .iv2w d _ | .iv1w d _ | .wrap2w _ _ d | .mac2w _ _ d | .mac1w _ _ d | .unwrap2w _ _ d | .cks d => frameDataFits d
  | .send _ o => o.wellFormed
  | .crcCheck x => decide (2 ≤ x.length)
  | .cmd00 _ _ o | .cmd03 _ o | .cmd28 _ o | .cmd2A _ _ o | .cmd2C _ o | .cmd2E _ o | .cmd31 _ o | .cmd32 _ _ o
  | .cmd36 _ o | .cmd50 _ o | .cmd54 _ o | .cmd56 _ o => o.wellFormed
  | .cmd04 _ p => decide (p.length ≤ 21)
  | .cmdFE _ _ more => decide (1 + more.length ≤ 21)
  | .cmd29 .. | .cmd2D .. | .cmd2F .. | .cmd33 .. | .cmd37 .. | .cmd51 .. | .cmd55 .. | .cmd57 .. => true
  | .cmd30 _ _ _ p | .cmd38 _ _ p | .cmd3C _ _ p | .cmd3D _ _ p => p.wellFormed

end Sys2Proof
end

