-- ==== Sys2Proof/Certificates/Slice0/Obligations.lean ====
section
/-! DEFINITION. The statements for the provers. `Sys2Proof.Claims` holds what they speak of beside the model: the tables and
formulas of the spec written out a second time, from its rules. -/

namespace Sys2Proof.Claims

open Sys2Proof.Machine

/-- 30_encoding.md R85: the operation codes. -/
def operationCodes : List Byte :=
  [0x01, 0x02, 0x03, 0x10, 0x20, 0x22, 0x30, 0x31, 0x40, 0x41, 0x42, 0x50, 0x51, 0x5F]

/-- 30_encoding.md R90: the command bytes of the catalog. -/
def commandBytes : List Byte :=
  [0x00, 0x03, 0x04, 0x28, 0x29, 0x2A, 0x2C, 0x2D, 0x2E, 0x2F, 0x30, 0x31, 0x32, 0x33, 0x36, 0x37, 0x38, 0x3C, 0x3D,
    0x50, 0x51, 0x54, 0x55, 0x56, 0x57, 0xFE]

/-- 40_checksum_iv.md R102: the 16-bit form of the checksum step. -/
def checksumRegister (byte s1 s2 : Byte) : Half :=
  let r : Half := (s1.zeroExtend 16 <<< 8) ||| s2.zeroExtend 16
  ((r ^^^ byte.zeroExtend 16) <<< 1) ^^^ (if r.getLsbD 15 then 0x555B else 0x0000)

/-- 41_aes.md R121: multiplication by `x` in GF(2^8). -/
def timesX (a : Byte) : Byte := if a.getLsbD 7 then (a <<< 1) ^^^ 0x1B else a <<< 1

/-- R121: the general product, the XOR of `xtime^k(a)` over the set bits `k` of `b`. -/
def product (a b : Byte) : Byte :=
  (List.range 8).foldl (fun acc k => if b.getLsbD k then acc ^^^ timesX^[k] a else acc) 0

/-- 41_aes.md R122: `box` is the S-box, each entry the affine image of the multiplicative inverse (zero for zero). -/
def IsSbox (box : Byte → Byte) : Prop :=
  ∀ a : Byte, ∃ b : Byte, (a = 0x00 → b = 0x00) ∧ (a ≠ 0x00 → product a b = 0x01) ∧
    box a = b ^^^ b.rotateLeft 1 ^^^ b.rotateLeft 2 ^^^ b.rotateLeft 3 ^^^ b.rotateLeft 4 ^^^ 0x63

/-- 41_aes.md R126: `w i j` is byte `j` of word `i` of the key schedule of `key`. -/
def IsKeySchedule (box : Byte → Byte) (key : Bytes 16) (w : Nat → Nat → Byte) : Prop :=
  (∀ i < 4, ∀ j < 4, w i j = key.get (4 * i + j)) ∧
    ∀ i, 4 ≤ i → i < 44 → ∀ j < 4,
      w i j = w (i - 4) j ^^^
        (if i % 4 = 0 then box (w (i - 1) ((j + 1) % 4)) ^^^ (if j = 0 then timesX^[i / 4 - 1] 0x01 else 0x00)
          else w (i - 1) j)

/-- R123, R124: row `r`, column `c` after SubBytes and ShiftRows of a state. -/
def shifted (box : Byte → Byte) (st : Nat → Nat → Byte) (r c : Nat) : Byte := box (st r ((c + r) % 4))

/-- R125: row `r`, column `c` after MixColumns too. -/
def mixed (box : Byte → Byte) (st : Nat → Nat → Byte) (r c : Nat) : Byte :=
  product (shifted box st r c) 0x02 ^^^ product (shifted box st ((r + 1) % 4) c) 0x03 ^^^
    shifted box st ((r + 2) % 4) c ^^^ shifted box st ((r + 3) % 4) c

/-- R120, R127, R130: `st n r c` is row `r`, column `c` of the state after round `n`, and `out` the encryption. -/
def IsCipherRun (box : Byte → Byte) (w : Nat → Nat → Byte) (block : Bytes 16) (st : Nat → Nat → Nat → Byte)
    (out : Bytes 16) : Prop :=
  (∀ r < 4, ∀ c < 4, st 0 r c = block.get (r + 4 * c) ^^^ w c r) ∧
    (∀ n < 9, ∀ r < 4, ∀ c < 4, st (n + 1) r c = mixed box (st n) r c ^^^ w (4 * (n + 1) + c) r) ∧
    ∀ r < 4, ∀ c < 4, out.get (r + 4 * c) = shifted box (st 9) r c ^^^ w (40 + c) r

/-- 44_crc_frame.md R160: one shift of the CRC register. -/
def crcStep (crc : Half) : Half := if crc.getLsbD 0 then (crc >>> 1) ^^^ 0x8408 else crc >>> 1

/-- 30_encoding.md R72: `ctrl1` of a frame record. -/
def controlByte (f : Frame) : Byte :=
  BitVec.ofNat 8 (8 + f.payload.length) ||| (f.protocol.zeroExtend 8 <<< 5) ||| (f.startFrame.zeroExtend 8 <<< 6) |||
    (f.endFrame.zeroExtend 8 <<< 7)

/-- 10_state.md R22, R23 with the pseudo-operations of 30_encoding.md R86: the operations that keep nothing and touch no
storage of the caller. -/
def isPure : Instr → Bool
  | .cksStep .. | .iv2w .. | .iv1w .. | .aesEnc .. | .wrap2w .. | .mac2w .. | .mac1w .. | .crc16 .. | .frameEnc ..
  | .frameDec .. | .selftest | .unwrap2w .. | .crcCheck .. | .cks .. => true
  | _ => false

/-- The frame of a header, a command byte and a payload, with its `ctrl2`. -/
def peerFrame (h : FrameHeader) (ctrl2 cmd : Byte) (payload : List Byte) : Frame :=
  ⟨h.protocol, h.startFrame, h.endFrame, ctrl2, h.source, h.target, cmd, payload⟩

/-- The frame of a broadcast: the target is `00 00 3B` (10_state.md R20). -/
def everyoneFrame (h : BroadcastHeader) (ctrl2 cmd : Byte) (payload : List Byte) : Frame :=
  ⟨h.protocol, h.startFrame, h.endFrame, ctrl2, h.source, ⟨[0x00, 0x00, 0x3B], rfl⟩, cmd, payload⟩

/-- The byte with one set bit. -/
def flag (bit : Fin 8) : Byte := 1#8 <<< bit.val

/-- 30_encoding.md R90: the frame, and the options, of a command that the host sends. -/
def sentFrame : Instr → Option (Frame × SendOpts)
  | .cmd00 h p o => some (peerFrame h h.ctrl2 0x00 p.data, o)
  | .cmd03 h o => some (peerFrame h h.ctrl2 0x03 [0x03, 0x00, 0x00], o)
  | .cmd28 h o =>
    some (everyoneFrame h (h.ctrl2 ||| flag Config.lpmBit ||| flag Config.prioBit) 0x28 [], ⟨o.frequency, o.repeatTime,
      o.repeatCount, o.lock, false, o.delayed⟩)
  | .cmd2A h p o => some (everyoneFrame h h.ctrl2 0x2A p.data, o)
  | .cmd2C h o => some (peerFrame h h.ctrl2 0x2C [], o)
  | .cmd2E h o => some (peerFrame h h.ctrl2 0x2E [0x02], o)
  | .cmd30 h w t (.send o) => some (peerFrame h h.ctrl2 0x30 (w.data ++ t), o)
  | .cmd31 h o => some (peerFrame h h.ctrl2 0x31 [], o)
  | .cmd32 h w o => some (peerFrame h h.ctrl2 0x32 w.data, o)
  | .cmd36 h o => some (peerFrame h (h.ctrl2 ||| flag Config.prioBit) 0x36 [], o)
  | .cmd38 h c (.send o) => some (peerFrame h h.ctrl2 0x38 c.data, o)
  | .cmd3C h c (.send o) => some (peerFrame h h.ctrl2 0x3C c.data, o)
  | .cmd3D h m (.send o) => some (peerFrame h h.ctrl2 0x3D m.data, o)
  | .cmd50 h o => some (peerFrame h h.ctrl2 0x50 [], o)
  | .cmd54 h o => some (peerFrame h h.ctrl2 0x54 [], o)
  | .cmd56 h o => some (peerFrame h h.ctrl2 0x56 [], o)
  | _ => none

/-- 30_encoding.md R90: the frame of a command that arrives from a peer. -/
def arrivingFrame : Instr → Option Frame
  | .cmd04 h p => some (peerFrame h h.ctrl2 0x04 p)
  | .cmd29 h p => some (peerFrame h h.ctrl2 0x29 p.data)
  | .cmd2D h => some (peerFrame h h.ctrl2 0x2D [])
  | .cmd2F h st => some (peerFrame h h.ctrl2 0x2F [st])
  | .cmd30 h w t .receive => some (peerFrame h h.ctrl2 0x30 (w.data ++ t))
  | .cmd33 h => some (peerFrame h h.ctrl2 0x33 [])
  | .cmd37 h a => some (peerFrame h h.ctrl2 0x37 a.data)
  | .cmd38 h c .receive => some (peerFrame h h.ctrl2 0x38 c.data)
  | .cmd3C h c .receive => some (peerFrame h h.ctrl2 0x3C c.data)
  | .cmd3D h m .receive => some (peerFrame h h.ctrl2 0x3D m.data)
  | .cmd51 h n => some (peerFrame h h.ctrl2 0x51 n.data)
  | .cmd55 h n => some (peerFrame h h.ctrl2 0x55 n.data)
  | .cmd57 h n => some (peerFrame h h.ctrl2 0x57 n.data)
  | .cmdFE h st more => some (peerFrame h h.ctrl2 0xFE (st :: more))
  | _ => none

/-- 45_radio_arbiter.md R183: the entry that an accepted SEND leaves. -/
def acceptedEntry (s : State) (f : Frame) (bytes : List Byte) (o : SendOpts) : TxEntry :=
  ⟨f, bytes, o, s.now + o.delayed, o.repeatCount, false, .intact⟩

/-- 45_radio_arbiter.md R194: whether an entry's repeats go on at `TxDone`. -/
def goesOn (e : TxEntry) (queue : List TxEntry) : Prop :=
  e.opts.lock = true ∨ queue = [] ∨ Config.unlockedRepeatPolicy = .goOn

/-- 45_radio_arbiter.md R180, R198, 60_exceptions.md R259: an event of the arbiter. The transmitter's four, a reception, and
(assumption 4) a command that a peer sends. -/
def IsEvent (t : Turn) : Prop :=
  t = .startTx ∨ t = .preambleDone ∨ t = .txDone ∨ t = .txFail ∨ (∃ x, t = .rxFrame x) ∨
    ∃ request i, t = .command request ∧ decodeCommand request = .ok i ∧ (arrivingFrame i).isSome = true

/-- 70_reset_and_hazards.md R292: an entry after its storage was breached with the mark `st`; after a second breach nothing
is known of the storage (assumption 20). -/
def marked (e : TxEntry) (st : FrameStorage) : TxEntry :=
  ⟨e.frame, e.bytes, e.opts, e.dueAt, e.repeatsLeft, e.firstDone, if e.storage = .intact then st else .freed⟩

/-- 60_exceptions.md R270: the key of vectors 1, 2 and 6. -/
def vectorKeyA : Bytes 16 :=
  ⟨[0x01, 0x02, 0x03, 0x04, 0x05, 0x06, 0x07, 0x08, 0x09, 0x10, 0x11, 0x12, 0x13, 0x14, 0x15, 0x16], rfl⟩

/-- R270: the key of vectors 3 and 4. -/
def vectorKeyB : Bytes 16 :=
  ⟨[0xAB, 0xCD, 0xEF, 0x01, 0x02, 0x03, 0x04, 0x05, 0x06, 0x07, 0x08, 0x09, 0x10, 0x11, 0x12, 0x13], rfl⟩

/-- R270: the challenge of vectors 3, 4 and 6. -/
def vectorChallenge : Bytes 6 := ⟨[0x12, 0x34, 0x56, 0x78, 0x9A, 0xBC], rfl⟩

/-- R270: the result of vector 1. -/
def vectorOne : Bytes 16 :=
  ⟨[0x7E, 0x60, 0x49, 0x1F, 0x97, 0x6A, 0xDF, 0x65, 0x3D, 0xB0, 0xED, 0x78, 0x5E, 0x49, 0xA2, 0x01], rfl⟩

/-- R270: the result of vector 3. -/
def vectorThree : Bytes 16 :=
  ⟨[0xEA, 0x42, 0x5A, 0x7A, 0x18, 0x28, 0x85, 0xD4, 0xEA, 0xEE, 0xFD, 0x41, 0x6D, 0x62, 0x5E, 0x01], rfl⟩

/-- A state without the result port and the caller's key storage. -/
def erase (s : State) : State := { s with result := none, callerKey := Bytes.zero 16 }

/-- An outcome whose state has neither. -/
def eraseOutcome : Host.Outcome State Fault Refusal → Host.Outcome State Fault Refusal
  | .next s => .next (erase s)
  | .fault r => .fault r
  | .refused r => .refused r

/-- The turns of `n` transmissions of one entry, with the wait for the next repeat after each. -/
def transmissions (repeatTime : Nat) : Nat → List Turn
  | 0 => []
  | n + 1 => [.startTx, .preambleDone, .txDone, .clock repeatTime] ++ transmissions repeatTime n

end Sys2Proof.Claims

open Sys2Proof Sys2Proof.Machine Sys2Proof.Claims

/-! ### Encodings -/

/-- R85, R25: whatever zero bytes follow it, the encoding of every operation, with any operands, decodes to it. The layout of
the operands is the model's choice (assumptions 2, 3). -/
def Obligations.OperationDecodesAsEncoded : Prop :=
  ∀ (i : Instr) (n : Nat), i.format = .op8 → decodeOperation (encode i ++ List.replicate n 0) = .ok i

/-- R90: the same for a wire command (assumptions 2, 3, 4). -/
def Obligations.CommandDecodesAsEncoded : Prop :=
  ∀ (i : Instr) (n : Nat), i.format = .wireCmd → decodeCommand (encode i ++ List.replicate n 0) = .ok i

/-- R85, R90: a code is read as an operation exactly when it is one of the fourteen of R85's table, a byte of a command turn as
a command exactly when it stands in R90's table. The second is the model's choice (assumption 4): to the block itself every
command byte is legal (R76). -/
def Obligations.CodesAreTheTables : Prop :=
  (∀ code : Byte, (∃ l i, decodeOperation (code :: l) = .ok i) ↔ code ∈ operationCodes) ∧
    ∀ cmd : Byte, (∃ l i, decodeCommand (cmd :: l) = .ok i) ↔ cmd ∈ commandBytes

/-- Words decode to the instructions they stand for, and a code outside the table does not decode. The codes and the order of the
operands are R85's and R25's; how the operands of CRC16 and ON_RECEIVE lie in bytes is the model's choice (assumption 2). -/
def Obligations.WrittenWordsDecode : Prop :=
  decodeOperation [0x01, 0x31, 0x00, 0x62] = .ok (.cksStep 0x31 0x00 0x62) ∧
    decodeOperation [0x40, 0x01, 0xAB, 0x01, 0xCD, 0x00] = .ok (.crc16 [0xAB, 0xCD]) ∧
    decodeOperation [0x5F] = .ok .selftest ∧
    decodeOperation [0x51, 0x01, 0x07, 0x00] = .ok (.onReceive 7) ∧
    decodeOperation [0x7E] = .error (.unknownOp 0x7E)

/-- 44_crc_frame.md R169: decoding inverts encoding, and every string that decodes is the encoding of its record. -/
def Obligations.FrameCodecRoundTrip : Prop :=
  (∀ (f : Frame) (s : State), f.payload.length ≤ 21 → ∃ bytes,
      exec (.frameEnc f) s = .next { s with result := some (.encoded bytes) } ∧
      exec (.frameDec bytes) s = .next { s with result := some (.decoded f) }) ∧
    ∀ (x : List Byte) (s : State),
      (∃ e, exec (.frameDec x) s = .next { s with result := some (.error e) }) ∨
      ∃ f, exec (.frameDec x) s = .next { s with result := some (.decoded f) } ∧
        exec (.frameEnc f) s = .next { s with result := some (.encoded x) }

/-! ### The step -/

/-- R85, R60: when the next turn is a request that decodes to an instruction, the step is that instruction's meaning, in the
state without the turn. That the interleaving is a list of turns is the model's choice (assumption 1), and so is the second
clause, that a turn of its own runs a wire command (assumption 4). -/
def Obligations.StepRunsTheDecodedInstruction : Prop :=
  ∀ (s : State) (request : List Byte) (rest : List Turn) (i : Instr),
    (nextTurn s = some (.operation request, rest) → decodeOperation request = .ok i →
      step s = exec i { s with inputs := rest }) ∧
    (nextTurn s = some (.command request, rest) → decodeCommand request = .ok i →
      step s = exec i { s with inputs := rest })

/-- R85: a code outside the table does nothing, and its result is `UnknownOp` with the code. -/
def Obligations.UnknownCodeAnswersUnknownOp : Prop :=
  ∀ (s : State) (code : Byte) (operands : List Byte) (rest : List Turn),
    nextTurn s = some (.operation (code :: operands), rest) → code ∉ operationCodes →
      step s = .next { s with inputs := rest, result := some (.error (.unknownOp code)) }

/-- R54, 93 U5: the step stops only for a request that is no instruction, and then by that name; no instruction is refused and
nothing faults. The spec speaks of operands of a wrong length; that an empty request, a bad mark byte, a tail that is not
zero, and a command byte outside R90's table are refused too is the model's choice (assumptions 3, 4), and that nothing faults
is deduced (assumption 26). -/
def Obligations.StepStopsOnlyOnMalformedRequests : Prop :=
  ∀ s : State, s.Completes ∨
    (step s = .refused .malformedRequest ∧ ∃ request rest,
      (nextTurn s = some (.operation request, rest) ∧ ∀ i, decodeOperation request ≠ .ok i) ∨
      (nextTurn s = some (.command request, rest) ∧ ∀ i, decodeCommand request ≠ .ok i))

/-- R35, R261: the clock advances by what the environment says, and a callback that returns has ended. The model's choices: the
clock is an unbounded number (assumption 9), and with no turn to take a step answers the same state (assumption 25), where R38
says only that the host decides what runs next. -/
def Obligations.QuietTurns : Prop :=
  ∀ (s : State) (rest : List Turn) (ms : Nat),
    (nextTurn s = none → step s = .next s) ∧
    (nextTurn s = some (.clock ms, rest) → step s = .next { s with inputs := rest, now := s.now + ms }) ∧
    (nextTurn s = some (.callbackReturns, rest) → step s = .next { s with inputs := rest, running := none })

/-! ### The cryptographic kernel -/

/-- 40_checksum_iv.md R102: the step is a left-shifting feedback register with feedback word `0x555B`. -/
def Obligations.CksStepIsTheFeedbackRegister : Prop :=
  ∀ (byte s1 s2 : Byte) (s : State), encode (.cksStep byte s1 s2) = [0x01, byte, s1, s2] ∧
    exec (.cksStep byte s1 s2) s = .next { s with result := some (.checksum
      ((checksumRegister byte s1 s2).extractLsb' 8 8) ((checksumRegister byte s1 s2).extractLsb' 0 8)) }

/-- 40_checksum_iv.md R104: from `(0, 0)`, one step for each byte in order. -/
def Obligations.CksFoldsTheSteps : Prop :=
  (∀ s : State, exec (.cks []) s = .next { s with result := some (.checksum 0x00 0x00) }) ∧
    ∀ (d : List Byte) (b : Byte) (s : State), ∃ p1 p2 q1 q2,
      exec (.cks d) s = .next { s with result := some (.checksum p1 p2) } ∧
      exec (.cksStep b p1 p2) s = .next { s with result := some (.checksum q1 q2) } ∧
      exec (.cks (d ++ [b])) s = .next { s with result := some (.checksum q1 q2) }

/-- 40_checksum_iv.md R101, its corner case: leading zero bytes leave the checksum as it is. -/
def Obligations.LeadingZerosLeaveTheChecksum : Prop :=
  ∀ (n : Nat) (d : List Byte) (s : State), exec (.cks (List.replicate n 0x00 ++ d)) s = exec (.cks d) s

/-- 40_checksum_iv.md R105, 30_encoding.md R78: the sixteen bytes of the 2W initial value. -/
def Obligations.Iv2wLayout : Prop :=
  ∀ (d : List Byte) (c : Bytes 6) (s : State), ∃ (iv : Bytes 16) (c1 c2 : Byte),
    (encode (.iv2w d c)).head? = some 0x02 ∧
    exec (.cks d) s = .next { s with result := some (.checksum c1 c2) } ∧
    exec (.iv2w d c) s = .next { s with result := some (.block iv) } ∧
    (∀ i < 8, iv.get i = if i < d.length then d.getD i 0x00 else 0x55) ∧ iv.get 8 = c1 ∧ iv.get 9 = c2 ∧
    ∀ i < 6, iv.get (10 + i) = c.get i

/-- 40_checksum_iv.md R108, 30_encoding.md R79: the sixteen bytes of the 1W initial value. -/
def Obligations.Iv1wLayout : Prop :=
  ∀ (d : List Byte) (q : Bytes 2) (s : State), ∃ (iv : Bytes 16) (c1 c2 : Byte),
    (encode (.iv1w d q)).head? = some 0x03 ∧
    exec (.cks d) s = .next { s with result := some (.checksum c1 c2) } ∧
    exec (.iv1w d q) s = .next { s with result := some (.block iv) } ∧
    (∀ i < 8, iv.get i = if i < d.length then d.getD i 0x00 else 0x55) ∧ iv.get 8 = c1 ∧ iv.get 9 = c2 ∧
    iv.get 10 = q.get 0 ∧ iv.get 11 = q.get 1 ∧ ∀ i < 4, iv.get (12 + i) = 0x55

/-- 41_aes.md R122: each entry of the model's table is the affine image of the multiplicative inverse. -/
def Obligations.SboxIsTheAffineInverse : Prop := IsSbox sbox

/-- 41_aes.md R120 to R130: AES_ENC is the cipher of the rules, in their own matrix form, with the S-box that R122
characterises (there is only one). -/
def Obligations.AesIsTheCipherOfTheRules : Prop :=
  ∀ (key block : Bytes 16) (s : State), ∃ (box : Byte → Byte) (w : Nat → Nat → Byte) (st : Nat → Nat → Nat → Byte)
      (out : Bytes 16),
    (encode (.aesEnc key block)).head? = some 0x10 ∧ IsSbox box ∧ IsKeySchedule box key w ∧
    IsCipherRun box w block st out ∧
    exec (.aesEnc key block) s = .next { s with result := some (.block out) }

/-- 42_keywrap.md R140, 10_state.md R21: the encryption of the 2W initial value under the transfer key, XORed onto the
key. -/
def Obligations.Wrap2wXorsTheKeyStream : Prop :=
  ∀ (k : Bytes 16) (c : Bytes 6) (d : List Byte) (s : State), ∃ iv ks w : Bytes 16,
    (encode (.wrap2w k c d)).head? = some 0x20 ∧
    exec (.iv2w d c) s = .next { s with result := some (.block iv) } ∧
    exec (.aesEnc ⟨[0x34, 0xC3, 0x46, 0x6E, 0xD8, 0x8F, 0x4E, 0x8E, 0x16, 0xAA, 0x47, 0x39, 0x49, 0x88, 0x43, 0x73], rfl⟩
      iv) s = .next { s with result := some (.block ks) } ∧
    exec (.wrap2w k c d) s = .next { s with result := some (.block w) } ∧ ∀ i < 16, w.get i = ks.get i ^^^ k.get i

/-- 42_keywrap.md R141: WRAP2W is its own inverse, and UNWRAP2W is it. -/
def Obligations.Wrap2wIsItsOwnInverse : Prop :=
  ∀ (k : Bytes 16) (c : Bytes 6) (d : List Byte) (s : State), ∃ w : Bytes 16,
    exec (.wrap2w k c d) s = .next { s with result := some (.block w) } ∧
    exec (.wrap2w w c d) s = .next { s with result := some (.block k) } ∧
    exec (.unwrap2w w c d) s = .next { s with result := some (.block k) } ∧
    encode (.unwrap2w w c d) = encode (.wrap2w w c d)

/-- 42_keywrap.md R142 (b): the wraps of two keys under one challenge and one string differ as the keys do. -/
def Obligations.WrapsOfTwoKeysDifferAsTheKeys : Prop :=
  ∀ (k1 k2 : Bytes 16) (c : Bytes 6) (d : List Byte) (s : State), ∃ w1 w2 : Bytes 16,
    exec (.wrap2w k1 c d) s = .next { s with result := some (.block w1) } ∧
    exec (.wrap2w k2 c d) s = .next { s with result := some (.block w2) } ∧
    ∀ i < 16, w1.get i ^^^ w2.get i = k1.get i ^^^ k2.get i

/-- 42_keywrap.md R145, 30_encoding.md R80: the encryption of the repeated address under the transfer key, XORed onto the
key; the result also overwrites the caller's key storage. -/
def Obligations.Wrap1wOverwritesTheKey : Prop :=
  ∀ (a : Bytes 3) (k : Bytes 16) (s : State), ∃ iv ks w : Bytes 16,
    (encode (.wrap1w a k)).head? = some 0x22 ∧ (∀ i < 16, iv.get i = a.get (i % 3)) ∧
    exec (.aesEnc ⟨[0x34, 0xC3, 0x46, 0x6E, 0xD8, 0x8F, 0x4E, 0x8E, 0x16, 0xAA, 0x47, 0x39, 0x49, 0x88, 0x43, 0x73], rfl⟩
      iv) s = .next { s with result := some (.block ks) } ∧
    exec (.wrap1w a k) s = .next { s with callerKey := w, result := some (.block w) } ∧
    ∀ i < 16, w.get i = ks.get i ^^^ k.get i

/-- 42_keywrap.md R147: WRAP1W is its own inverse for one address, and UNWRAP1W is it; the wraps of two keys for one
address differ as the keys do. -/
def Obligations.Wrap1wIsItsOwnInverse : Prop :=
  ∀ (a : Bytes 3) (k k2 : Bytes 16) (s : State), ∃ w w2 : Bytes 16,
    exec (.wrap1w a k) s = .next { s with callerKey := w, result := some (.block w) } ∧
    exec (.wrap1w a w) s = .next { s with callerKey := k, result := some (.block k) } ∧
    exec (.unwrap1w a w) s = .next { s with callerKey := k, result := some (.block k) } ∧
    encode (.unwrap1w a w) = encode (.wrap1w a w) ∧
    exec (.wrap1w a k2) s = .next { s with callerKey := w2, result := some (.block w2) } ∧
    ∀ i < 16, w.get i ^^^ w2.get i = k.get i ^^^ k2.get i

/-- 43_mac.md R150: the first six bytes of the encryption of the 2W initial value under the key. -/
def Obligations.Mac2wIsTheFirstSixBytes : Prop :=
  ∀ (c : Bytes 6) (k : Bytes 16) (d : List Byte) (s : State), ∃ (iv t : Bytes 16) (m : Bytes 6),
    (encode (.mac2w c k d)).head? = some 0x30 ∧
    exec (.iv2w d c) s = .next { s with result := some (.block iv) } ∧
    exec (.aesEnc k iv) s = .next { s with result := some (.block t) } ∧
    exec (.mac2w c k d) s = .next { s with result := some (.mac m) } ∧ ∀ i < 6, m.get i = t.get i

/-- 43_mac.md R154: the same with the 1W initial value. -/
def Obligations.Mac1wIsTheFirstSixBytes : Prop :=
  ∀ (q : Bytes 2) (k : Bytes 16) (d : List Byte) (s : State), ∃ (iv t : Bytes 16) (m : Bytes 6),
    (encode (.mac1w q k d)).head? = some 0x31 ∧
    exec (.iv1w d q) s = .next { s with result := some (.block iv) } ∧
    exec (.aesEnc k iv) s = .next { s with result := some (.block t) } ∧
    exec (.mac1w q k d) s = .next { s with result := some (.mac m) } ∧ ∀ i < 6, m.get i = t.get i

/-- 43_mac.md R151: strings with equal first eight bytes and equal checksum give equal MACs for one key and challenge. -/
def Obligations.MacSeesTheTailThroughTheChecksum : Prop :=
  ∀ (c : Bytes 6) (k : Bytes 16) (d1 d2 : List Byte) (s : State),
    d1.take 8 = d2.take 8 → exec (.cks d1) s = exec (.cks d2) s →
      ∃ m, exec (.mac2w c k d1) s = .next { s with result := some (.mac m) } ∧
        exec (.mac2w c k d2) s = .next { s with result := some (.mac m) }

/-- 10_state.md R22, R23, 20_memory.md R56: an operation of the kernel or the codec writes nothing but its result, and that
result does not depend on the state. -/
def Obligations.PureOperationsDependOnNothing : Prop :=
  ∀ i : Instr, isPure i = true → ∃ r, ∀ s : State, exec i s = .next { s with result := some r }

/-! ### The codec -/

/-- 44_crc_frame.md R160: from zero, eight shifts for each byte. -/
def Obligations.Crc16ShiftsEachByte : Prop :=
  (∀ s : State, exec (.crc16 []) s = .next { s with result := some (.crc 0x0000) }) ∧
    ∀ (d : List Byte) (b : Byte) (s : State), ∃ crc : Half,
      (encode (.crc16 d)).head? = some 0x40 ∧
      exec (.crc16 d) s = .next { s with result := some (.crc crc) } ∧
      exec (.crc16 (d ++ [b])) s = .next { s with result := some (.crc (crcStep^[8] (crc ^^^ b.zeroExtend 16))) }

/-- 44_crc_frame.md R163: both forms of the check, for a string of two bytes or more. -/
def Obligations.CrcCheckHasTwoForms : Prop :=
  ∀ (x : List Byte) (s : State), 2 ≤ x.length → ∃ (good : Bool) (whole body : Half),
    exec (.crcCheck x) s = .next { s with result := some (.check good) } ∧
    exec (.crc16 x) s = .next { s with result := some (.crc whole) } ∧
    exec (.crc16 (x.take (x.length - 2))) s = .next { s with result := some (.crc body) } ∧
    (good = true ↔ body = (x.getD (x.length - 2) 0).zeroExtend 16 ||| ((x.getD (x.length - 1) 0).zeroExtend 16 <<< 8)) ∧
    (good = true ↔ whole = 0x0000)

/-- 44_crc_frame.md R160, R164: two strings that differ in one byte have different CRCs. -/
def Obligations.CrcSeesOneChangedByte : Prop :=
  ∀ (p q : List Byte) (a b : Byte) (s : State), a ≠ b → ∃ c1 c2 : Half, c1 ≠ c2 ∧
    exec (.crc16 (p ++ a :: q)) s = .next { s with result := some (.crc c1) } ∧
    exec (.crc16 (p ++ b :: q)) s = .next { s with result := some (.crc c2) }

/-- 44_crc_frame.md R165, R162, 30_encoding.md R70, R72: the bytes of a frame, and the refusal of a longer payload. -/
def Obligations.FrameEncLaysOutTheFrame : Prop :=
  ∀ (f : Frame) (s : State),
    (encode (.frameEnc f)).head? = some 0x41 ∧
    (f.payload.length ≤ 21 → ∃ (bytes : List Byte) (crc : Half),
      exec (.frameEnc f) s = .next { s with result := some (.encoded bytes) } ∧
      bytes.length = 11 + f.payload.length ∧ bytes.getD 0 0 = controlByte f ∧ bytes.getD 1 0 = f.ctrl2 ∧
      (∀ i < 3, bytes.getD (2 + i) 0 = f.source.get i) ∧ (∀ i < 3, bytes.getD (5 + i) 0 = f.target.get i) ∧
      bytes.getD 8 0 = f.cmd ∧ (∀ i < f.payload.length, bytes.getD (9 + i) 0 = f.payload.getD i 0) ∧
      exec (.crc16 (bytes.take (9 + f.payload.length))) s = .next { s with result := some (.crc crc) } ∧
      bytes.getD (9 + f.payload.length) 0 = crc.extractLsb' 0 8 ∧
      bytes.getD (10 + f.payload.length) 0 = crc.extractLsb' 8 8) ∧
    (21 < f.payload.length →
      exec (.frameEnc f) s = .next { s with result := some (.error (.payloadTooLong f.payload.length)) })

/-- 44_crc_frame.md R167, 60_exceptions.md R252: the checks in their order, and the record when all pass; a received string
that is refused does nothing. -/
def Obligations.FrameDecChecksInOrder : Prop :=
  ∀ (x : List Byte) (s : State),
    (encode (.frameDec x)).head? = some 0x42 ∧
    (x.length < 11 → exec (.frameDec x) s = .next { s with result := some (.error (.tooShort x.length)) }) ∧
    (11 ≤ x.length → exec (.crcCheck x) s = .next { s with result := some (.check false) } →
      exec (.frameDec x) s = .next { s with result := some (.error .badCrc) }) ∧
    (11 ≤ x.length → exec (.crcCheck x) s = .next { s with result := some (.check true) } → 21 < x.length - 11 →
      exec (.frameDec x) s = .next { s with result := some (.error (.payloadTooLong (x.length - 11))) }) ∧
    (11 ≤ x.length → exec (.crcCheck x) s = .next { s with result := some (.check true) } → x.length - 11 ≤ 21 →
      (x.getD 0 0 &&& 0x1F).toNat ≠ x.length - 3 →
      exec (.frameDec x) s = .next
        { s with result := some (.error (.lengthMismatch (x.getD 0 0 &&& 0x1F).toNat x.length)) }) ∧
    (11 ≤ x.length → exec (.crcCheck x) s = .next { s with result := some (.check true) } → x.length - 11 ≤ 21 →
      (x.getD 0 0 &&& 0x1F).toNat = x.length - 3 → ∃ f : Frame,
      exec (.frameDec x) s = .next { s with result := some (.decoded f) } ∧
      f.protocol.zeroExtend 8 = (x.getD 0 0 >>> 5) &&& 0x01 ∧ f.startFrame.zeroExtend 8 = (x.getD 0 0 >>> 6) &&& 0x01 ∧
      f.endFrame.zeroExtend 8 = (x.getD 0 0 >>> 7) &&& 0x01 ∧ f.ctrl2 = x.getD 1 0 ∧
      (∀ i < 3, f.source.get i = x.getD (2 + i) 0) ∧ (∀ i < 3, f.target.get i = x.getD (5 + i) 0) ∧
      f.cmd = x.getD 8 0 ∧ f.payload.length = x.length - 11 ∧
      ∀ i < x.length - 11, f.payload.getD i 0 = x.getD (9 + i) 0) ∧
    ∀ (e : OpError) (rest : List Turn), exec (.frameDec x) s = .next { s with result := some (.error e) } →
      nextTurn s = some (.rxFrame x, rest) → step s = .next { s with inputs := rest }

/-- 60_exceptions.md R270: SELFTEST answers `Pass`, in every state, and writes nothing else; and the six vectors it stands for
come out, each by the operation R270 names. -/
def Obligations.SelftestPasses : Prop :=
  ∀ s : State, encode .selftest = [0x5F] ∧ exec .selftest s = .next { s with result := some .pass } ∧
    exec (.wrap1w ⟨[0xAB, 0xCD, 0xEF], rfl⟩ vectorKeyA) s =
      .next { s with callerKey := vectorOne, result := some (.block vectorOne) } ∧
    exec (.mac1w ⟨[0x12, 0x34], rfl⟩ vectorKeyA (0x30 :: vectorOne.data)) s =
      .next { s with result := some (.mac ⟨[0x19, 0xE8, 0x1E, 0xC4, 0x3D, 0x5E], rfl⟩) } ∧
    exec (.wrap2w vectorKeyB vectorChallenge [0x38, 0x12, 0x34, 0x56, 0x78, 0x9A, 0xBC]) s =
      .next { s with result := some (.block vectorThree) } ∧
    exec (.mac2w vectorChallenge vectorKeyB (0x32 :: vectorThree.data)) s =
      .next { s with result := some (.mac ⟨[0x0A, 0xE5, 0x19, 0xA7, 0x3C, 0x99], rfl⟩) } ∧
    exec (.frameEnc ⟨0, 0, 0, 0x04, ⟨[0xF0, 0x0F, 0x00], rfl⟩, ⟨[0xFE, 0xEF, 0xEE], rfl⟩, 0x32, vectorThree.data⟩) s =
      .next { s with result := some (.encoded
        ([0x18, 0x04, 0xF0, 0x0F, 0x00, 0xFE, 0xEF, 0xEE, 0x32] ++ vectorThree.data ++ [0x63, 0x79])) } ∧
    exec (.wrap2w vectorKeyA vectorChallenge [0x31]) s =
      .next { s with result := some (.block
        ⟨[0x10, 0x2E, 0x49, 0xA1, 0x6D, 0x3B, 0x69, 0x72, 0x6F, 0x31, 0x92, 0xCF, 0x17, 0x53, 0x4A, 0xD9], rfl⟩) }

/-! ### SEND, ON_RECEIVE and the wire commands -/

/-- 45_radio_arbiter.md R182, R183, 60_exceptions.md R252: the radio-state gate, the depth gate, the encoder's error, and the
entry appended when all pass. -/
def Obligations.SendPassesItsGates : Prop :=
  ∀ (f : Frame) (o : SendOpts) (s : State),
    (encode (.send f o)).head? = some 0x50 ∧
    (s.radioState = .tx ∨ s.radioState = .preamble →
      exec (.send f o) s = .next { s with result := some (.error .radioBusy) }) ∧
    (s.radioState = .rx → s.txQueue.length = Config.txqDepth →
      exec (.send f o) s = .next { s with result := some (.error .radioBusy) }) ∧
    (s.radioState = .rx → s.txQueue.length ≠ Config.txqDepth → 21 < f.payload.length →
      exec (.send f o) s = .next { s with result := some (.error (.payloadTooLong f.payload.length)) }) ∧
    (s.radioState = .rx → s.txQueue.length ≠ Config.txqDepth → f.payload.length ≤ 21 → ∃ bytes,
      exec (.frameEnc f) s = .next { s with result := some (.encoded bytes) } ∧
      exec (.send f o) s = .next
        { s with txQueue := s.txQueue ++ [acceptedEntry s f bytes o], result := some .accepted })

/-- 45_radio_arbiter.md R186: the one slot is replaced. -/
def Obligations.OnReceiveReplacesTheCallback : Prop :=
  ∀ (cb : Nat) (s : State), (encode (.onReceive cb)).head? = some 0x51 ∧
    exec (.onReceive cb) s = .next { s with rxCallback := some cb, result := some .nothing }

/-- R90, R86 (assumption 4): a command that the host sends is SEND of its frame in every state, and with the gates open its
frame is queued, the command byte at byte 8. Only the 1W key push (`cmd30`) can have more than 21 payload bytes. That a row is
such a SEND is the model's choice (assumption 4), as are the operands of `cmd30` and `cmd38` (assumption 24); the flags and the
preamble of `cmd28` and `cmd36` are deduced (assumption 23). -/
def Obligations.SentCommandsQueueTheirFrame : Prop :=
  ∀ (i : Instr) (f : Frame) (o : SendOpts) (s : State), sentFrame i = some (f, o) →
    exec i s = exec (.send f o) s ∧ (encode i).head? = some f.cmd ∧
    (s.radioState = .rx → s.txQueue.length ≠ Config.txqDepth → f.payload.length ≤ 21 → ∃ bytes,
      exec i s = .next { s with txQueue := s.txQueue ++ [acceptedEntry s f bytes o], result := some .accepted } ∧
      bytes.getD 8 0 = f.cmd ∧ bytes.length = 11 + f.payload.length)

/-- R90, R198 (assumptions 4, 28): the frame of a command that arrives is handed to the callback in `RX`; it is dropped without
a trace with no callback, outside `RX`, and when it is longer than a frame can be. That exec drops it while the callback runs
is the model's choice, of exec alone: no step comes there, since the turn of such a frame waits until the callback has returned
(assumption 14). -/
def Obligations.ArrivingCommandsReachTheCallback : Prop :=
  ∀ (i : Instr) (f : Frame) (s : State), arrivingFrame i = some f → (encode i).head? = some f.cmd ∧
    (s.rxCallback = none ∨ s.radioState ≠ .rx ∨ s.running.isSome = true ∨ 21 < f.payload.length → exec i s = .next s) ∧
    ∀ cb, s.rxCallback = some cb → s.radioState = .rx → s.running = none → f.payload.length ≤ 21 →
      exec i s = .next { s with running := some (cb, f), notifications := s.notifications ++ [.received cb f] }

/-- R90 (assumption 4): the model takes an instruction for an arriving frame exactly when the catalog has it arrive, and every
wire command is either SEND of its frame or the reception of its frame's bytes, so the two statements above leave none out. -/
def Obligations.EveryCommandIsSentOrArrives : Prop :=
  ∀ i : Instr, arrives i = (arrivingFrame i).isSome ∧
    (i.format = .wireCmd →
      (∃ f o, sentFrame i = some (f, o) ∧ arrivingFrame i = none ∧ ∀ s, exec i s = exec (.send f o) s) ∨
      ∃ f, sentFrame i = none ∧ arrivingFrame i = some f ∧ ∀ (s : State) (bytes : List Byte),
        exec (.frameEnc f) s = .next { s with result := some (.encoded bytes) } → exec i s = runTurn (.rxFrame bytes) s)

/-- The frame of exec: what each operation leaves alone (R22, R23, R56, R183, R186, R198, R145). That a wire command does what
SEND or a reception does, and so writes the queue, or the callback and no result, is the model's choice (assumption 4). -/
def Obligations.OperationsChangeOnlyWhatIsTheirs : Prop :=
  ∀ (i : Instr) (s : State), ∃ t, exec i s = .next t ∧
    t.radioState = s.radioState ∧ t.current = s.current ∧ t.now = s.now ∧ t.air = s.air ∧ t.freeIndex = s.freeIndex ∧
    t.inputs = s.inputs ∧
    ((∀ a k, i ≠ .wrap1w a k ∧ i ≠ .unwrap1w a k) → t.callerKey = s.callerKey) ∧
    ((∀ cb, i ≠ .onReceive cb) → t.rxCallback = s.rxCallback) ∧
    ((∀ f o, i ≠ .send f o ∧ sentFrame i ≠ some (f, o)) → t.txQueue = s.txQueue) ∧
    (arrivingFrame i = none → t.running = s.running ∧ t.notifications = s.notifications) ∧
    ((arrivingFrame i).isSome = true → t.result = s.result)

/-! ### The arbiter's events -/

/-- 45_radio_arbiter.md R190, R194 (a): in `RX` the oldest due entry that nothing holds back goes on the air. -/
def Obligations.StartTxTakesTheOldestDue : Prop :=
  ∀ (s : State) (rest : List Turn) (before after : List TxEntry) (e : TxEntry),
    nextTurn s = some (.startTx, rest) → s.radioState = .rx → s.txQueue = before ++ e :: after → e.dueAt ≤ s.now →
    (∀ d ∈ before, s.now < d.dueAt) → (∀ d ∈ before.head?, d.opts.lock = false ∨ d.firstDone = false) →
      step s = .next { s with
        inputs := rest, txQueue := before ++ after, current := some e, radioState := .preamble,
        air := s.air ++ [.preamble e.opts.frequency e.opts.shortPreamble] }

/-- 45_radio_arbiter.md R190, R191, R194 (a): nothing starts outside `RX`, with no due entry, or while a locked entry at the
head waits for its repeat. That the turn then passes is the model's choice (assumption 15). -/
def Obligations.StartTxIsHeldBack : Prop :=
  ∀ (s : State) (rest : List Turn), nextTurn s = some (.startTx, rest) →
    (s.radioState ≠ .rx ∨ (∀ e ∈ s.txQueue, s.now < e.dueAt) ∨
      (∃ e tail, s.txQueue = e :: tail ∧ e.opts.lock = true ∧ e.firstDone = true ∧ s.now < e.dueAt)) →
      step s = .next { s with inputs := rest }

/-- 45_radio_arbiter.md R192: the bytes made at SEND go on the air. That this may come at any time in `PREAMBLE` is the model's
choice (assumption 10). -/
def Obligations.PreambleDoneSendsTheBytes : Prop :=
  ∀ (s : State) (rest : List Turn) (e : TxEntry),
    nextTurn s = some (.preambleDone, rest) → s.radioState = .preamble → s.current = some e → e.storage = .intact →
      step s = .next { s with
        inputs := rest, radioState := .tx, air := s.air ++ [.frame e.opts.frequency e.bytes] }

/-- 45_radio_arbiter.md R193, R194: the entry waits for its next repeat at the head of the queue, or is reported
transmitted. That this may come at any time in `TX` is the model's choice (assumption 10). -/
def Obligations.TxDoneRepeatsOrReports : Prop :=
  ∀ (s : State) (rest : List Turn) (e : TxEntry),
    nextTurn s = some (.txDone, rest) → s.radioState = .tx → s.current = some e →
    (0 < e.repeatsLeft → goesOn e s.txQueue →
      step s = .next { s with
        inputs := rest, radioState := .rx, current := none,
        txQueue := { e with repeatsLeft := e.repeatsLeft - 1, firstDone := true, dueAt := s.now + e.opts.repeatTime } ::
          s.txQueue }) ∧
    (e.repeatsLeft = 0 ∨ ¬ goesOn e s.txQueue → e.storage = .intact →
      step s = .next { s with
        inputs := rest, radioState := .rx, current := none,
        notifications := s.notifications ++ [.txComplete e.frame .transmitted] })

/-- 45_radio_arbiter.md R195: in `PREAMBLE` or `TX`, the entry is reported failed and not repeated. -/
def Obligations.TxFailReportsFailure : Prop :=
  ∀ (s : State) (rest : List Turn) (e : TxEntry),
    nextTurn s = some (.txFail, rest) → s.radioState = .preamble ∨ s.radioState = .tx → s.current = some e →
    e.storage = .intact →
      step s = .next { s with
        inputs := rest, radioState := .rx, current := none,
        notifications := s.notifications ++ [.txComplete e.frame .failed] }

/-- 45_radio_arbiter.md R198: a frame that decodes is handed to the callback; with no callback, with an error, or outside
`RX`, nothing happens. -/
def Obligations.RxFrameCallsBackOrDrops : Prop :=
  ∀ (s : State) (rest : List Turn) (x : List Byte), nextTurn s = some (.rxFrame x, rest) →
    (s.radioState ≠ .rx → step s = .next { s with inputs := rest }) ∧
    (s.rxCallback = none → step s = .next { s with inputs := rest }) ∧
    (∀ e, exec (.frameDec x) s = .next { s with result := some (.error e) } → step s = .next { s with inputs := rest }) ∧
    ∀ f cb, s.radioState = .rx → s.rxCallback = some cb →
      exec (.frameDec x) s = .next { s with result := some (.decoded f) } →
      step s = .next { s with
        inputs := rest, running := some (cb, f), notifications := s.notifications ++ [.received cb f] }

/-- 60_exceptions.md R259: while the callback runs the next turn is the first of the list that is no arbiter event, and there is
none only if the list holds events alone; the events stay in the list, in their order. While no callback runs the next turn is
the first of the list. That the events wait is deduced (assumption 14); that a command turn can be a reception, and so an event,
is the model's choice (assumption 4). -/
def Obligations.ArbiterEventsWaitForTheCallback : Prop :=
  ∀ s : State,
    (∀ t rest, s.running.isSome = true → nextTurn s = some (t, rest) → ¬ IsEvent t ∧
      ∃ before after, s.inputs = before ++ t :: after ∧ rest = before ++ after ∧ ∀ b ∈ before, IsEvent b) ∧
    (s.running.isSome = true → nextTurn s = none → ∀ t ∈ s.inputs, IsEvent t) ∧
    (∀ t rest, s.running = none → s.inputs = t :: rest → nextTurn s = some (t, rest)) ∧
    (s.running = none → s.inputs = [] → nextTurn s = none)

/-- 70_reset_and_hazards.md R280, R282: reset discards every frame without a report. The model's choices: what it leaves alone
beside the block's own state (assumption 11), that no result stands after it (assumption 12), and that a callback which runs
has ended (assumption 35). -/
def Obligations.ResetDiscardsWithoutReport : Prop :=
  ∀ (s : State) (rest : List Turn), nextTurn s = some (.reset, rest) →
    step s = .next { s with
      inputs := rest, radioState := .rx, txQueue := [], current := none, rxCallback := none, running := none,
      result := none }

/-- 70_reset_and_hazards.md R292 (a): after the host changed an owned record to one that encodes, the old or the new bytes go
out. Which of the two is a free value, in the model's form (assumption 20). -/
def Obligations.ChangedFrameSendsOldOrNewBytes : Prop :=
  ∀ (s : State) (rest : List Turn) (e : TxEntry) (g : Frame) (new : List Byte),
    nextTurn s = some (.preambleDone, rest) → s.radioState = .preamble → s.current = some e → e.storage = .changed g →
    exec (.frameEnc g) s = .next { s with result := some (.encoded new) } →
      ∃ sent, (sent = e.bytes ∨ sent = new) ∧
        step s = .next { s with
          inputs := rest, radioState := .tx, air := s.air ++ [.frame e.opts.frequency sent],
          freeIndex := s.freeIndex + 1 }

/-! ### The machine as a whole -/

/-- 10_state.md R40, 70_reset_and_hazards.md R280: what reset leaves. That no callback runs is the model's reading of 'no
operation in progress' (assumption 35). -/
def Obligations.ResetLeavesTheArbiterEmpty : Prop :=
  State.reset.radioState = .rx ∧ State.reset.txQueue = [] ∧ State.reset.current = none ∧
    State.reset.rxCallback = none ∧ State.reset.owned = [] ∧ State.reset.running = none

/-- 45_radio_arbiter.md R181: the invariant holds after reset. -/
def Obligations.InvHoldsAtReset : Prop := State.reset.Inv

/-- 45_radio_arbiter.md R181: every step keeps the invariant. -/
def Obligations.StepKeepsInv : Prop := ∀ s t : State, s.Inv → step s = .next t → t.Inv

/-- 10_state.md R36: as long as the host leaves the frames it handed over alone, they are as it handed them over. -/
def Obligations.StepKeepsStorageIntact : Prop :=
  ∀ (s t : State) (turn : Turn) (rest : List Turn), nextTurn s = some (turn, rest) → turn.keepsOwnership = true →
    s.storageIntact → step s = .next t → t.storageIntact

/-- 45_radio_arbiter.md R202: the radio state changes only as the table says, and by reset. -/
def Obligations.RadioChangesOnlyAsTheTableSays : Prop :=
  ∀ (s t : State) (turn : Turn) (rest : List Turn), nextTurn s = some (turn, rest) → step s = .next t →
    t.radioState = s.radioState ∨
    (turn = .startTx ∧ s.radioState = .rx ∧ t.radioState = .preamble ∧ ∃ e ∈ s.txQueue, t.current = some e) ∨
    (turn = .preambleDone ∧ s.radioState = .preamble ∧ t.radioState = .tx ∧ t.current = s.current) ∨
    (turn = .txDone ∧ s.radioState = .tx ∧ t.radioState = .rx ∧ t.current = none) ∨
    (turn = .txFail ∧ s.radioState ≠ .rx ∧ t.radioState = .rx ∧ t.current = none) ∨
    (turn = .reset ∧ t.radioState = .rx ∧ t.current = none)

/-- 10_state.md R36, 92_eei_decisions.md D21, as a count: but for reset, every step either keeps the number of the frames owned and
the completions reported together, or accepts one frame, at the end of those owned, and reports none. Which frame leaves and
which is reported is `OwnedFrameLeavesByItsReport`. -/
def Obligations.OwnedPlusReportedIsConserved : Prop :=
  ∀ (s t : State) (turn : Turn) (rest : List Turn), s.Inv → nextTurn s = some (turn, rest) → turn ≠ .reset →
    step s = .next t →
      t.owned.length + t.completions = s.owned.length + s.completions ∨
      (t.result = some .accepted ∧ t.completions = s.completions ∧ ∃ e, t.owned = s.owned ++ [e])

/-- 45_radio_arbiter.md R193: alone in the queue and due, an entry with `repeat = n` is transmitted `1 + n` times and then
reported transmitted, once. That the events take no time of the clock in the turns given is the model's choice (assumption
10). -/
def Obligations.FrameGoesOutOnePlusRepeatTimes : Prop :=
  ∀ (s : State) (e : TxEntry) (rest : List Turn),
    s.radioState = .rx → s.current = none → s.running = none → s.txQueue = [e] → e.storage = .intact →
    e.firstDone = false → e.repeatsLeft = e.opts.repeatCount → e.dueAt ≤ s.now →
    s.inputs = transmissions e.opts.repeatTime (1 + e.opts.repeatCount) ++ rest →
      Host.Core.run core (4 * (1 + e.opts.repeatCount)) s = .next { s with
        inputs := rest, txQueue := [], now := s.now + (1 + e.opts.repeatCount) * e.opts.repeatTime,
        notifications := s.notifications ++ [.txComplete e.frame .transmitted],
        air := s.air ++ (List.replicate (1 + e.opts.repeatCount)
          [AirEvent.preamble e.opts.frequency e.opts.shortPreamble, AirEvent.frame e.opts.frequency e.bytes]).flatten }

/-- 45_radio_arbiter.md R196: from `PREAMBLE` or `TX` the transmitter's events bring the radio back to `RX`: the preamble's end
and the transmission's end, or a failure at once. In `TX` the turn of the preamble's end is not enabled and passes, which is the
model's choice (assumption 15). That the events come is the premise here, as fairness is no part of the step (assumption 31). -/
def Obligations.BusyPeriodEnds : Prop :=
  ∀ (s : State) (rest : List Turn), s.Inv → s.radioState ≠ .rx →
    (s.inputs = [.preambleDone, .txDone] ++ rest → ∃ t, Host.Core.run core 2 s = .next t ∧ t.radioState = .rx ∧
      t.current = none ∧ t.inputs = rest) ∧
    (s.inputs = .txFail :: rest → ∃ t, step s = .next t ∧ t.radioState = .rx ∧ t.current = none ∧ t.inputs = rest)

/-- 10_state.md R22, R37: no step depends on the result of an earlier operation or on the caller's key storage: two states that
differ only in these have next states that differ at most in these, and there only where the step left the field alone. -/
def Obligations.ResultsAndKeysAreNeverRead : Prop :=
  ∀ (s : State) (r : Option OpResult) (k : Bytes 16),
    eraseOutcome (step { s with result := r, callerKey := k }) = eraseOutcome (step s) ∧
    ∀ t u, step s = .next t → step { s with result := r, callerKey := k } = .next u →
      (u.result = t.result ∨ (u.result = r ∧ t.result = s.result)) ∧
      (u.callerKey = t.callerKey ∨ (u.callerKey = k ∧ t.callerKey = s.callerKey))

/-! ### Breaches of the ownership rule, and fair runs -/

/-- 70_reset_and_hazards.md R292, 93 U7: the host's turn that changes or frees the storage of an owned frame marks that frame's
entry and raises nothing; while the frame's bytes go out, they become any value, too. That such a breach is a turn, and how it
counts the owned frames, is the model's choice (assumption 20). -/
def Obligations.BreachMarksOneOwnedFrame : Prop :=
  ∀ (s : State) (turn : Turn) (rest : List Turn) (slot : Nat) (st : FrameStorage),
    nextTurn s = some (turn, rest) →
    ((∃ g, turn = .frameChanged slot g ∧ st = .changed g) ∨ (turn = .frameFreed slot ∧ st = .freed)) →
    (s.owned.length ≤ slot → step s = .next { s with inputs := rest }) ∧
    (∀ before e after, s.current = none → s.txQueue = before ++ e :: after → slot = before.length →
      step s = .next { s with inputs := rest, txQueue := before ++ marked e st :: after }) ∧
    (∀ c before e after, s.current = some c → s.txQueue = before ++ e :: after → slot = before.length + 1 →
      step s = .next { s with inputs := rest, txQueue := before ++ marked e st :: after }) ∧
    (∀ c, s.current = some c → slot = 0 → s.radioState ≠ .tx →
      step s = .next { s with inputs := rest, current := some (marked c st) }) ∧
    ∀ c log channel bytes, s.current = some c → slot = 0 → s.radioState = .tx →
      s.air = log ++ [.frame channel bytes] → ∃ sent,
        step s = .next { s with
          inputs := rest, current := some (marked c st), air := log ++ [.frame channel sent],
          freeIndex := s.freeIndex + 1 }

/-- R292 (b), 93 U7: after a breach the transmitter's events do all that they do otherwise; only the bytes that go out, with the
storage freed or the changed record without an encoding, and the frame that is reported, are any value (assumption 20). -/
def Obligations.BreachedFrameGoesOnWithFreeValues : Prop :=
  ∀ (s : State) (rest : List Turn) (e : TxEntry), s.current = some e →
    (nextTurn s = some (.preambleDone, rest) → s.radioState = .preamble →
      (e.storage = .freed ∨ ∃ g, e.storage = .changed g ∧ 21 < g.payload.length) → ∃ sent,
        step s = .next { s with
          inputs := rest, radioState := .tx, air := s.air ++ [.frame e.opts.frequency sent],
          freeIndex := s.freeIndex + 1 }) ∧
    (nextTurn s = some (.txDone, rest) → s.radioState = .tx → e.storage ≠ .intact →
      (e.repeatsLeft = 0 ∨ ¬ goesOn e s.txQueue) → ∃ g,
        step s = .next { s with
          inputs := rest, radioState := .rx, current := none, freeIndex := s.freeIndex + 1,
          notifications := s.notifications ++ [.txComplete g .transmitted] }) ∧
    (nextTurn s = some (.txFail, rest) → (s.radioState = .preamble ∨ s.radioState = .tx) → e.storage ≠ .intact → ∃ g,
        step s = .next { s with
          inputs := rest, radioState := .rx, current := none, freeIndex := s.freeIndex + 1,
          notifications := s.notifications ++ [.txComplete g .failed] })

/-- 45_radio_arbiter.md R192: in `TX` the last thing on the air is a frame, on the channel of the entry on the air: so after reset,
and so after every step. The log is the model's form of the air (assumptions 12, 34). -/
def Obligations.AirLogEndsWithTheFrameOnAir : Prop :=
  State.reset.AirAgrees ∧ ∀ s t : State, s.AirAgrees → step s = .next t → t.AirAgrees

/-- 45_radio_arbiter.md R196: in a run with weak fairness of the transmitter's events, whether or not of `TxFail` too, a busy radio
gets back to `RX` by the end or the failure of its transmission (or by a reset); when an entry is eligible, one that is eligible
is started (or there is a reset); and the oldest entry of all, once due, is itself started, its storage mark apart (or there is
a reset). How runs are made is the model's choice (assumption 31). -/
def Obligations.FairRunsMakeProgress : Prop :=
  ∀ (run : Nat → State) (n : Nat), IsRun run →
    (∀ turn, turn ≠ .txFail → WeaklyFair run turn) → (run n).Inv →
    ((run n).radioState ≠ .rx → ∃ m, n ≤ m ∧
      (Takes run m .txDone ∨ Takes run m .txFail ∨ Takes run m .reset) ∧ (run (m + 1)).radioState = .rx) ∧
    (∀ e, (run n).canStart e → ∃ m, n ≤ m ∧
      (Takes run m .reset ∨ ∃ d, (run m).canStart d ∧ Takes run m .startTx ∧ (run (m + 1)).current = some d ∧
        (run (m + 1)).radioState = .preamble)) ∧
    ∀ e tail, (run n).radioState = .rx → (run n).txQueue = e :: tail → e.dueAt ≤ (run n).now → ∃ m, n ≤ m ∧
      (Takes run m .reset ∨ ∃ st, Takes run m .startTx ∧ (run (m + 1)).current = some { e with storage := st } ∧
        (run (m + 1)).radioState = .preamble)

/-- 10_state.md R36, 45_radio_arbiter.md R193, R195, 92_eei_decisions.md D21: but for reset, every step does one of three things. It
keeps the frames owned (each as it was handed over, their order apart) and reports no completion, and accepts nothing. Or it
accepts one frame, at the end of those owned. Or, at `TxDone` or `TxFail`, the entry on the air leaves, those that were queued
stay, and one completion is reported, with that entry's frame if the host left its storage alone (any frame else, assumption
20). -/
def Obligations.OwnedFrameLeavesByItsReport : Prop :=
  ∀ (s t : State) (turn : Turn) (rest : List Turn), s.Inv → nextTurn s = some (turn, rest) → turn ≠ .reset →
    step s = .next t →
      ((t.owned.map TxEntry.frame).Perm (s.owned.map TxEntry.frame) ∧
        t.notifications.filter Notification.isCompletion = s.notifications.filter Notification.isCompletion ∧
        (t.result = some .accepted → s.result = some .accepted)) ∨
      (∃ f o bytes, t.owned = s.owned ++ [acceptedEntry s f bytes o] ∧ t.notifications = s.notifications ∧
        t.result = some .accepted) ∨
      ∃ e g status, s.current = some e ∧ t.owned = s.txQueue ∧
        t.notifications = s.notifications ++ [.txComplete g status] ∧ (e.storage = .intact → g = e.frame) ∧
        ((turn = .txDone ∧ status = .transmitted) ∨ (turn = .txFail ∧ status = .failed))
end

