-- ==== Sys2Proof/Laws/State.lean ====
section
/-! SUPPORT. Each field after each update of the state: no proof unfolds a record update. -/

namespace Sys2Proof.Machine

variable (s : State)

@[simp] theorem State.finish_radioState (r : OpResult) : (s.finish r).radioState = s.radioState := rfl
@[simp] theorem State.finish_txQueue (r : OpResult) : (s.finish r).txQueue = s.txQueue := rfl
@[simp] theorem State.finish_current (r : OpResult) : (s.finish r).current = s.current := rfl
@[simp] theorem State.finish_rxCallback (r : OpResult) : (s.finish r).rxCallback = s.rxCallback := rfl
@[simp] theorem State.finish_now (r : OpResult) : (s.finish r).now = s.now := rfl
@[simp] theorem State.finish_running (r : OpResult) : (s.finish r).running = s.running := rfl
@[simp] theorem State.finish_result (r : OpResult) : (s.finish r).result = some r := rfl
@[simp] theorem State.finish_notifications (r : OpResult) : (s.finish r).notifications = s.notifications := rfl
@[simp] theorem State.finish_air (r : OpResult) : (s.finish r).air = s.air := rfl
@[simp] theorem State.finish_callerKey (r : OpResult) : (s.finish r).callerKey = s.callerKey := rfl
@[simp] theorem State.finish_freeIndex (r : OpResult) : (s.finish r).freeIndex = s.freeIndex := rfl
@[simp] theorem State.finish_inputs (r : OpResult) : (s.finish r).inputs = s.inputs := rfl

@[simp] theorem State.raise_radioState (e : OpError) : (s.raise e).radioState = s.radioState := rfl
@[simp] theorem State.raise_txQueue (e : OpError) : (s.raise e).txQueue = s.txQueue := rfl
@[simp] theorem State.raise_current (e : OpError) : (s.raise e).current = s.current := rfl
@[simp] theorem State.raise_rxCallback (e : OpError) : (s.raise e).rxCallback = s.rxCallback := rfl
@[simp] theorem State.raise_now (e : OpError) : (s.raise e).now = s.now := rfl
@[simp] theorem State.raise_running (e : OpError) : (s.raise e).running = s.running := rfl
@[simp] theorem State.raise_result (e : OpError) : (s.raise e).result = some (.error e) := rfl
@[simp] theorem State.raise_notifications (e : OpError) : (s.raise e).notifications = s.notifications := rfl
@[simp] theorem State.raise_air (e : OpError) : (s.raise e).air = s.air := rfl
@[simp] theorem State.raise_callerKey (e : OpError) : (s.raise e).callerKey = s.callerKey := rfl
@[simp] theorem State.raise_freeIndex (e : OpError) : (s.raise e).freeIndex = s.freeIndex := rfl
@[simp] theorem State.raise_inputs (e : OpError) : (s.raise e).inputs = s.inputs := rfl

@[simp] theorem State.notify_radioState (n : Notification) : (s.notify n).radioState = s.radioState := rfl
@[simp] theorem State.notify_txQueue (n : Notification) : (s.notify n).txQueue = s.txQueue := rfl
@[simp] theorem State.notify_current (n : Notification) : (s.notify n).current = s.current := rfl
@[simp] theorem State.notify_rxCallback (n : Notification) : (s.notify n).rxCallback = s.rxCallback := rfl
@[simp] theorem State.notify_now (n : Notification) : (s.notify n).now = s.now := rfl
@[simp] theorem State.notify_running (n : Notification) : (s.notify n).running = s.running := rfl
@[simp] theorem State.notify_result (n : Notification) : (s.notify n).result = s.result := rfl
@[simp] theorem State.notify_notifications (n : Notification) : (s.notify n).notifications = s.notifications ++ [n] := rfl
@[simp] theorem State.notify_air (n : Notification) : (s.notify n).air = s.air := rfl
@[simp] theorem State.notify_callerKey (n : Notification) : (s.notify n).callerKey = s.callerKey := rfl
@[simp] theorem State.notify_freeIndex (n : Notification) : (s.notify n).freeIndex = s.freeIndex := rfl
@[simp] theorem State.notify_inputs (n : Notification) : (s.notify n).inputs = s.inputs := rfl

@[simp] theorem State.emit_radioState (a : AirEvent) : (s.emit a).radioState = s.radioState := rfl
@[simp] theorem State.emit_txQueue (a : AirEvent) : (s.emit a).txQueue = s.txQueue := rfl
@[simp] theorem State.emit_current (a : AirEvent) : (s.emit a).current = s.current := rfl
@[simp] theorem State.emit_rxCallback (a : AirEvent) : (s.emit a).rxCallback = s.rxCallback := rfl
@[simp] theorem State.emit_now (a : AirEvent) : (s.emit a).now = s.now := rfl
@[simp] theorem State.emit_running (a : AirEvent) : (s.emit a).running = s.running := rfl
@[simp] theorem State.emit_result (a : AirEvent) : (s.emit a).result = s.result := rfl
@[simp] theorem State.emit_notifications (a : AirEvent) : (s.emit a).notifications = s.notifications := rfl
@[simp] theorem State.emit_air (a : AirEvent) : (s.emit a).air = s.air ++ [a] := rfl
@[simp] theorem State.emit_callerKey (a : AirEvent) : (s.emit a).callerKey = s.callerKey := rfl
@[simp] theorem State.emit_freeIndex (a : AirEvent) : (s.emit a).freeIndex = s.freeIndex := rfl
@[simp] theorem State.emit_inputs (a : AirEvent) : (s.emit a).inputs = s.inputs := rfl

@[simp] theorem State.enterCallback_radioState (cb : Nat) (f : Frame) : (s.enterCallback cb f).radioState = s.radioState := rfl
@[simp] theorem State.enterCallback_txQueue (cb : Nat) (f : Frame) : (s.enterCallback cb f).txQueue = s.txQueue := rfl
@[simp] theorem State.enterCallback_current (cb : Nat) (f : Frame) : (s.enterCallback cb f).current = s.current := rfl
@[simp] theorem State.enterCallback_rxCallback (cb : Nat) (f : Frame) : (s.enterCallback cb f).rxCallback = s.rxCallback := rfl
@[simp] theorem State.enterCallback_now (cb : Nat) (f : Frame) : (s.enterCallback cb f).now = s.now := rfl
@[simp] theorem State.enterCallback_running (cb : Nat) (f : Frame) : (s.enterCallback cb f).running = some (cb, f) := rfl
@[simp] theorem State.enterCallback_result (cb : Nat) (f : Frame) : (s.enterCallback cb f).result = s.result := rfl
@[simp] theorem State.enterCallback_notifications (cb : Nat) (f : Frame) : (s.enterCallback cb f).notifications = s.notifications ++ [.received cb f] := rfl
@[simp] theorem State.enterCallback_air (cb : Nat) (f : Frame) : (s.enterCallback cb f).air = s.air := rfl
@[simp] theorem State.enterCallback_callerKey (cb : Nat) (f : Frame) : (s.enterCallback cb f).callerKey = s.callerKey := rfl
@[simp] theorem State.enterCallback_freeIndex (cb : Nat) (f : Frame) : (s.enterCallback cb f).freeIndex = s.freeIndex := rfl
@[simp] theorem State.enterCallback_inputs (cb : Nat) (f : Frame) : (s.enterCallback cb f).inputs = s.inputs := rfl

@[simp] theorem State.returnFromCallback_radioState : (s.returnFromCallback).radioState = s.radioState := rfl
@[simp] theorem State.returnFromCallback_txQueue : (s.returnFromCallback).txQueue = s.txQueue := rfl
@[simp] theorem State.returnFromCallback_current : (s.returnFromCallback).current = s.current := rfl
@[simp] theorem State.returnFromCallback_rxCallback : (s.returnFromCallback).rxCallback = s.rxCallback := rfl
@[simp] theorem State.returnFromCallback_now : (s.returnFromCallback).now = s.now := rfl
@[simp] theorem State.returnFromCallback_running : (s.returnFromCallback).running = none := rfl
@[simp] theorem State.returnFromCallback_result : (s.returnFromCallback).result = s.result := rfl
@[simp] theorem State.returnFromCallback_notifications : (s.returnFromCallback).notifications = s.notifications := rfl
@[simp] theorem State.returnFromCallback_air : (s.returnFromCallback).air = s.air := rfl
@[simp] theorem State.returnFromCallback_callerKey : (s.returnFromCallback).callerKey = s.callerKey := rfl
@[simp] theorem State.returnFromCallback_freeIndex : (s.returnFromCallback).freeIndex = s.freeIndex := rfl
@[simp] theorem State.returnFromCallback_inputs : (s.returnFromCallback).inputs = s.inputs := rfl

@[simp] theorem State.setCallback_radioState (cb : Nat) : (s.setCallback cb).radioState = s.radioState := rfl
@[simp] theorem State.setCallback_txQueue (cb : Nat) : (s.setCallback cb).txQueue = s.txQueue := rfl
@[simp] theorem State.setCallback_current (cb : Nat) : (s.setCallback cb).current = s.current := rfl
@[simp] theorem State.setCallback_rxCallback (cb : Nat) : (s.setCallback cb).rxCallback = some cb := rfl
@[simp] theorem State.setCallback_now (cb : Nat) : (s.setCallback cb).now = s.now := rfl
@[simp] theorem State.setCallback_running (cb : Nat) : (s.setCallback cb).running = s.running := rfl
@[simp] theorem State.setCallback_result (cb : Nat) : (s.setCallback cb).result = s.result := rfl
@[simp] theorem State.setCallback_notifications (cb : Nat) : (s.setCallback cb).notifications = s.notifications := rfl
@[simp] theorem State.setCallback_air (cb : Nat) : (s.setCallback cb).air = s.air := rfl
@[simp] theorem State.setCallback_callerKey (cb : Nat) : (s.setCallback cb).callerKey = s.callerKey := rfl
@[simp] theorem State.setCallback_freeIndex (cb : Nat) : (s.setCallback cb).freeIndex = s.freeIndex := rfl
@[simp] theorem State.setCallback_inputs (cb : Nat) : (s.setCallback cb).inputs = s.inputs := rfl

@[simp] theorem State.storeCallerKey_radioState (k : Bytes 16) : (s.storeCallerKey k).radioState = s.radioState := rfl
@[simp] theorem State.storeCallerKey_txQueue (k : Bytes 16) : (s.storeCallerKey k).txQueue = s.txQueue := rfl
@[simp] theorem State.storeCallerKey_current (k : Bytes 16) : (s.storeCallerKey k).current = s.current := rfl
@[simp] theorem State.storeCallerKey_rxCallback (k : Bytes 16) : (s.storeCallerKey k).rxCallback = s.rxCallback := rfl
@[simp] theorem State.storeCallerKey_now (k : Bytes 16) : (s.storeCallerKey k).now = s.now := rfl
@[simp] theorem State.storeCallerKey_running (k : Bytes 16) : (s.storeCallerKey k).running = s.running := rfl
@[simp] theorem State.storeCallerKey_result (k : Bytes 16) : (s.storeCallerKey k).result = s.result := rfl
@[simp] theorem State.storeCallerKey_notifications (k : Bytes 16) : (s.storeCallerKey k).notifications = s.notifications := rfl
@[simp] theorem State.storeCallerKey_air (k : Bytes 16) : (s.storeCallerKey k).air = s.air := rfl
@[simp] theorem State.storeCallerKey_callerKey (k : Bytes 16) : (s.storeCallerKey k).callerKey = k := rfl
@[simp] theorem State.storeCallerKey_freeIndex (k : Bytes 16) : (s.storeCallerKey k).freeIndex = s.freeIndex := rfl
@[simp] theorem State.storeCallerKey_inputs (k : Bytes 16) : (s.storeCallerKey k).inputs = s.inputs := rfl

@[simp] theorem State.enqueue_radioState (e : TxEntry) : (s.enqueue e).radioState = s.radioState := rfl
@[simp] theorem State.enqueue_txQueue (e : TxEntry) : (s.enqueue e).txQueue = s.txQueue ++ [e] := rfl
@[simp] theorem State.enqueue_current (e : TxEntry) : (s.enqueue e).current = s.current := rfl
@[simp] theorem State.enqueue_rxCallback (e : TxEntry) : (s.enqueue e).rxCallback = s.rxCallback := rfl
@[simp] theorem State.enqueue_now (e : TxEntry) : (s.enqueue e).now = s.now := rfl
@[simp] theorem State.enqueue_running (e : TxEntry) : (s.enqueue e).running = s.running := rfl
@[simp] theorem State.enqueue_result (e : TxEntry) : (s.enqueue e).result = s.result := rfl
@[simp] theorem State.enqueue_notifications (e : TxEntry) : (s.enqueue e).notifications = s.notifications := rfl
@[simp] theorem State.enqueue_air (e : TxEntry) : (s.enqueue e).air = s.air := rfl
@[simp] theorem State.enqueue_callerKey (e : TxEntry) : (s.enqueue e).callerKey = s.callerKey := rfl
@[simp] theorem State.enqueue_freeIndex (e : TxEntry) : (s.enqueue e).freeIndex = s.freeIndex := rfl
@[simp] theorem State.enqueue_inputs (e : TxEntry) : (s.enqueue e).inputs = s.inputs := rfl

@[simp] theorem State.requeue_radioState (e : TxEntry) : (s.requeue e).radioState = s.radioState := rfl
@[simp] theorem State.requeue_txQueue (e : TxEntry) : (s.requeue e).txQueue = e :: s.txQueue := rfl
@[simp] theorem State.requeue_current (e : TxEntry) : (s.requeue e).current = s.current := rfl
@[simp] theorem State.requeue_rxCallback (e : TxEntry) : (s.requeue e).rxCallback = s.rxCallback := rfl
@[simp] theorem State.requeue_now (e : TxEntry) : (s.requeue e).now = s.now := rfl
@[simp] theorem State.requeue_running (e : TxEntry) : (s.requeue e).running = s.running := rfl
@[simp] theorem State.requeue_result (e : TxEntry) : (s.requeue e).result = s.result := rfl
@[simp] theorem State.requeue_notifications (e : TxEntry) : (s.requeue e).notifications = s.notifications := rfl
@[simp] theorem State.requeue_air (e : TxEntry) : (s.requeue e).air = s.air := rfl
@[simp] theorem State.requeue_callerKey (e : TxEntry) : (s.requeue e).callerKey = s.callerKey := rfl
@[simp] theorem State.requeue_freeIndex (e : TxEntry) : (s.requeue e).freeIndex = s.freeIndex := rfl
@[simp] theorem State.requeue_inputs (e : TxEntry) : (s.requeue e).inputs = s.inputs := rfl

@[simp] theorem State.beginTx_radioState (e : TxEntry) (q : List TxEntry) : (s.beginTx e q).radioState = .preamble := rfl
@[simp] theorem State.beginTx_txQueue (e : TxEntry) (q : List TxEntry) : (s.beginTx e q).txQueue = q := rfl
@[simp] theorem State.beginTx_current (e : TxEntry) (q : List TxEntry) : (s.beginTx e q).current = some e := rfl
@[simp] theorem State.beginTx_rxCallback (e : TxEntry) (q : List TxEntry) : (s.beginTx e q).rxCallback = s.rxCallback := rfl
@[simp] theorem State.beginTx_now (e : TxEntry) (q : List TxEntry) : (s.beginTx e q).now = s.now := rfl
@[simp] theorem State.beginTx_running (e : TxEntry) (q : List TxEntry) : (s.beginTx e q).running = s.running := rfl
@[simp] theorem State.beginTx_result (e : TxEntry) (q : List TxEntry) : (s.beginTx e q).result = s.result := rfl
@[simp] theorem State.beginTx_notifications (e : TxEntry) (q : List TxEntry) : (s.beginTx e q).notifications = s.notifications := rfl
@[simp] theorem State.beginTx_air (e : TxEntry) (q : List TxEntry) : (s.beginTx e q).air = s.air := rfl
@[simp] theorem State.beginTx_callerKey (e : TxEntry) (q : List TxEntry) : (s.beginTx e q).callerKey = s.callerKey := rfl
@[simp] theorem State.beginTx_freeIndex (e : TxEntry) (q : List TxEntry) : (s.beginTx e q).freeIndex = s.freeIndex := rfl
@[simp] theorem State.beginTx_inputs (e : TxEntry) (q : List TxEntry) : (s.beginTx e q).inputs = s.inputs := rfl

@[simp] theorem State.goOnAir_radioState : (s.goOnAir).radioState = .tx := rfl
@[simp] theorem State.goOnAir_txQueue : (s.goOnAir).txQueue = s.txQueue := rfl
@[simp] theorem State.goOnAir_current : (s.goOnAir).current = s.current := rfl
@[simp] theorem State.goOnAir_rxCallback : (s.goOnAir).rxCallback = s.rxCallback := rfl
@[simp] theorem State.goOnAir_now : (s.goOnAir).now = s.now := rfl
@[simp] theorem State.goOnAir_running : (s.goOnAir).running = s.running := rfl
@[simp] theorem State.goOnAir_result : (s.goOnAir).result = s.result := rfl
@[simp] theorem State.goOnAir_notifications : (s.goOnAir).notifications = s.notifications := rfl
@[simp] theorem State.goOnAir_air : (s.goOnAir).air = s.air := rfl
@[simp] theorem State.goOnAir_callerKey : (s.goOnAir).callerKey = s.callerKey := rfl
@[simp] theorem State.goOnAir_freeIndex : (s.goOnAir).freeIndex = s.freeIndex := rfl
@[simp] theorem State.goOnAir_inputs : (s.goOnAir).inputs = s.inputs := rfl

@[simp] theorem State.endTx_radioState : (s.endTx).radioState = .rx := rfl
@[simp] theorem State.endTx_txQueue : (s.endTx).txQueue = s.txQueue := rfl
@[simp] theorem State.endTx_current : (s.endTx).current = none := rfl
@[simp] theorem State.endTx_rxCallback : (s.endTx).rxCallback = s.rxCallback := rfl
@[simp] theorem State.endTx_now : (s.endTx).now = s.now := rfl
@[simp] theorem State.endTx_running : (s.endTx).running = s.running := rfl
@[simp] theorem State.endTx_result : (s.endTx).result = s.result := rfl
@[simp] theorem State.endTx_notifications : (s.endTx).notifications = s.notifications := rfl
@[simp] theorem State.endTx_air : (s.endTx).air = s.air := rfl
@[simp] theorem State.endTx_callerKey : (s.endTx).callerKey = s.callerKey := rfl
@[simp] theorem State.endTx_freeIndex : (s.endTx).freeIndex = s.freeIndex := rfl
@[simp] theorem State.endTx_inputs : (s.endTx).inputs = s.inputs := rfl

@[simp] theorem State.drawFree_radioState : (s.drawFree).radioState = s.radioState := rfl
@[simp] theorem State.drawFree_txQueue : (s.drawFree).txQueue = s.txQueue := rfl
@[simp] theorem State.drawFree_current : (s.drawFree).current = s.current := rfl
@[simp] theorem State.drawFree_rxCallback : (s.drawFree).rxCallback = s.rxCallback := rfl
@[simp] theorem State.drawFree_now : (s.drawFree).now = s.now := rfl
@[simp] theorem State.drawFree_running : (s.drawFree).running = s.running := rfl
@[simp] theorem State.drawFree_result : (s.drawFree).result = s.result := rfl
@[simp] theorem State.drawFree_notifications : (s.drawFree).notifications = s.notifications := rfl
@[simp] theorem State.drawFree_air : (s.drawFree).air = s.air := rfl
@[simp] theorem State.drawFree_callerKey : (s.drawFree).callerKey = s.callerKey := rfl
@[simp] theorem State.drawFree_freeIndex : (s.drawFree).freeIndex = s.freeIndex + 1 := rfl
@[simp] theorem State.drawFree_inputs : (s.drawFree).inputs = s.inputs := rfl

@[simp] theorem State.advanceClock_radioState (ms : Nat) : (s.advanceClock ms).radioState = s.radioState := rfl
@[simp] theorem State.advanceClock_txQueue (ms : Nat) : (s.advanceClock ms).txQueue = s.txQueue := rfl
@[simp] theorem State.advanceClock_current (ms : Nat) : (s.advanceClock ms).current = s.current := rfl
@[simp] theorem State.advanceClock_rxCallback (ms : Nat) : (s.advanceClock ms).rxCallback = s.rxCallback := rfl
@[simp] theorem State.advanceClock_now (ms : Nat) : (s.advanceClock ms).now = s.now + ms := rfl
@[simp] theorem State.advanceClock_running (ms : Nat) : (s.advanceClock ms).running = s.running := rfl
@[simp] theorem State.advanceClock_result (ms : Nat) : (s.advanceClock ms).result = s.result := rfl
@[simp] theorem State.advanceClock_notifications (ms : Nat) : (s.advanceClock ms).notifications = s.notifications := rfl
@[simp] theorem State.advanceClock_air (ms : Nat) : (s.advanceClock ms).air = s.air := rfl
@[simp] theorem State.advanceClock_callerKey (ms : Nat) : (s.advanceClock ms).callerKey = s.callerKey := rfl
@[simp] theorem State.advanceClock_freeIndex (ms : Nat) : (s.advanceClock ms).freeIndex = s.freeIndex := rfl
@[simp] theorem State.advanceClock_inputs (ms : Nat) : (s.advanceClock ms).inputs = s.inputs := rfl

@[simp] theorem State.resetBlock_radioState : (s.resetBlock).radioState = .rx := rfl
@[simp] theorem State.resetBlock_txQueue : (s.resetBlock).txQueue = [] := rfl
@[simp] theorem State.resetBlock_current : (s.resetBlock).current = none := rfl
@[simp] theorem State.resetBlock_rxCallback : (s.resetBlock).rxCallback = none := rfl
@[simp] theorem State.resetBlock_now : (s.resetBlock).now = s.now := rfl
@[simp] theorem State.resetBlock_running : (s.resetBlock).running = none := rfl
@[simp] theorem State.resetBlock_result : (s.resetBlock).result = none := rfl
@[simp] theorem State.resetBlock_notifications : (s.resetBlock).notifications = s.notifications := rfl
@[simp] theorem State.resetBlock_air : (s.resetBlock).air = s.air := rfl
@[simp] theorem State.resetBlock_callerKey : (s.resetBlock).callerKey = s.callerKey := rfl
@[simp] theorem State.resetBlock_freeIndex : (s.resetBlock).freeIndex = s.freeIndex := rfl
@[simp] theorem State.resetBlock_inputs : (s.resetBlock).inputs = s.inputs := rfl

end Sys2Proof.Machine
end

