-- ==== Sys2Proof/Laws/Arbiter.lean ====
section
/-! SUPPORT. What each operation of the codec's gate, the arbiter and the turn list can do, said once. -/

namespace Sys2Proof.Machine

theorem frameEnc_of_le {f : Frame} (h : f.payload.length ≤ 21) :
    frameEnc f = .ok (preCrcBytes f ++ crcBytes (crc16 (preCrcBytes f))) := by
  simp [frameEnc, payloadMax, Nat.not_lt.mpr h]

theorem frameEnc_of_gt {f : Frame} (h : 21 < f.payload.length) :
    frameEnc f = .error (.payloadTooLong f.payload.length) := by
  simp [frameEnc, payloadMax, h]

/-- SEND: turned away by a gate, or by the encoder, or accepted. -/
theorem sendFrame_cases (f : Frame) (o : SendOpts) (s : State) :
    (s.radioState ≠ .rx ∧ sendFrame f o s = s.raise .radioBusy) ∨
    (s.radioState = .rx ∧ s.txQueue.length = Config.txqDepth ∧ sendFrame f o s = s.raise .radioBusy) ∨
    (s.radioState = .rx ∧ s.txQueue.length ≠ Config.txqDepth ∧ ∃ e, frameEnc f = .error e ∧
      sendFrame f o s = s.raise e) ∨
    (s.radioState = .rx ∧ s.txQueue.length ≠ Config.txqDepth ∧ ∃ bytes, frameEnc f = .ok bytes ∧
      sendFrame f o s = (s.enqueue (newEntry s.now f bytes o)).finish .accepted) := by
  unfold sendFrame
  cases h : s.radioState
  · by_cases hq : s.txQueue.length = Config.txqDepth
    · simp [hq]
    · cases he : frameEnc f <;> simp [hq]
  · simp
  · simp

/-- RxFrame: nothing, or the callback is entered. -/
theorem rxFrame_cases (x : List Byte) (s : State) :
    rxFrame x s = s ∨
    (s.radioState = .rx ∧ s.running = none ∧ ∃ f cb, frameDec x = .ok f ∧ s.rxCallback = some cb ∧
      rxFrame x s = s.enterCallback cb f) := by
  unfold rxFrame
  split
  · next h =>
    cases hd : frameDec x with
    | error e => simp
    | ok f =>
      cases hc : s.rxCallback with
      | none => simp
      | some cb => exact .inr ⟨h.1, h.2, f, cb, rfl, rfl, rfl⟩
  · exact .inl rfl

/-- A peer's frame: nothing, or the callback is entered. -/
theorem receiveFrame_cases (f : Frame) (s : State) :
    receiveFrame f s = s ∨
    (s.radioState = .rx ∧ s.running = none ∧ ∃ g cb, s.rxCallback = some cb ∧
      receiveFrame f s = s.enterCallback cb g) := by
  unfold receiveFrame
  cases frameEnc f with
  | error e => exact .inl rfl
  | ok x =>
    obtain h | ⟨h1, h2, g, cb, -, h3, h4⟩ := rxFrame_cases x s
    · exact .inl h
    · exact .inr ⟨h1, h2, g, cb, h3, h4⟩

/-- The oldest due entry: no entry before it is due, and the rest keeps its order. -/
theorem oldestDue_some {now : Nat} {q rest : List TxEntry} {e : TxEntry} (h : oldestDue now q = some (e, rest)) :
    ∃ before after, q = before ++ e :: after ∧ rest = before ++ after ∧ e.dueAt ≤ now ∧
      ∀ d ∈ before, now < d.dueAt := by
  induction q generalizing rest with
  | nil => simp [oldestDue] at h
  | cons a q ih =>
    unfold oldestDue at h
    split at h
    · next ha =>
      obtain ⟨rfl, rfl⟩ : a = e ∧ q = rest := by simpa using h
      exact ⟨[], q, by simp [ha]⟩
    · next ha =>
      cases hq : oldestDue now q with
      | none => simp [hq] at h
      | some p =>
        obtain ⟨d, r⟩ := p
        simp only [hq, Option.some.injEq, Prod.mk.injEq] at h
        obtain ⟨rfl, rfl⟩ := h
        obtain ⟨before, after, h1, h2, h3, h4⟩ := ih hq
        refine ⟨a :: before, after, by simp [h1], by simp [h2], h3, ?_⟩
        simpa using ⟨by omega, h4⟩

/-- No entry is due when there is no oldest due one. -/
theorem oldestDue_none {now : Nat} {q : List TxEntry} (h : oldestDue now q = none) : ∀ e ∈ q, now < e.dueAt := by
  induction q with
  | nil => simp
  | cons a q ih =>
    unfold oldestDue at h
    split at h
    · simp at h
    · next ha =>
      cases hq : oldestDue now q with
      | none => simpa using ⟨by omega, ih hq⟩
      | some p => simp [hq] at h

/-- The entry StartTx takes is the oldest due one, and the head if the head holds the others back. -/
theorem eligible_some {now : Nat} {q rest : List TxEntry} {e : TxEntry} (h : eligible now q = some (e, rest)) :
    ∃ before after, q = before ++ e :: after ∧ rest = before ++ after ∧ e.dueAt ≤ now ∧
      (∀ d ∈ before, now < d.dueAt) ∧ ∀ d ∈ before.head?, holdsBack d = false := by
  cases q with
  | nil => simp [eligible] at h
  | cons a q =>
    rw [eligible] at h
    split at h
    · split at h
      · next ha =>
        obtain ⟨rfl, rfl⟩ : a = e ∧ q = rest := by simpa using h
        exact ⟨[], q, by simp [ha]⟩
      · simp at h
    · next hb =>
      obtain ⟨before, after, h1, h2, h3, h4⟩ := oldestDue_some h
      refine ⟨before, after, h1, h2, h3, h4, ?_⟩
      cases before with
      | nil => simp
      | cons b before =>
        obtain ⟨rfl, -⟩ : a = b ∧ _ := by simpa using h1
        simpa using hb

/-- StartTx: nothing, or the eligible entry goes on the air. -/
theorem startTx_cases (s : State) :
    startTx s = s ∨
    (s.radioState = .rx ∧ ∃ e rest, eligible s.now s.txQueue = some (e, rest) ∧
      startTx s = (s.emit (.preamble e.opts.frequency e.opts.shortPreamble)).beginTx e rest) := by
  unfold startTx
  split
  · next h =>
    cases he : eligible s.now s.txQueue with
    | none => exact .inl rfl
    | some p => exact .inr ⟨h, p.1, p.2, rfl, rfl⟩
  · exact .inl rfl

/-- PreambleDone: nothing, or the bytes of the entry on the air go out. -/
theorem preambleDone_cases (s : State) :
    preambleDone s = s ∨
    (s.radioState = .preamble ∧ ∃ e, s.current = some e ∧
      preambleDone s = ((s.emit (.frame e.opts.frequency (sentBytes s.freeIndex e))).drawFor e).goOnAir) := by
  unfold preambleDone
  split
  · next e h1 h2 => exact .inr ⟨h1, e, h2, rfl⟩
  · exact .inl rfl

/-- TxDone: nothing, or the entry waits for a repeat, or it is reported. -/
theorem txDone_cases (s : State) :
    txDone s = s ∨
    (s.radioState = .tx ∧ ∃ e, s.current = some e ∧ 0 < e.repeatsLeft ∧ repeatsContinue e s.txQueue = true ∧
      txDone s = s.endTx.requeue (repeated s.now e)) ∨
    (s.radioState = .tx ∧ ∃ e, s.current = some e ∧ ¬ (0 < e.repeatsLeft ∧ repeatsContinue e s.txQueue = true) ∧
      txDone s = complete s e .transmitted) := by
  unfold txDone
  split
  · next e h1 h2 =>
    split
    · next h => exact .inr (.inl ⟨h1, e, h2, h.1, h.2, rfl⟩)
    · next h => exact .inr (.inr ⟨h1, e, h2, h, rfl⟩)
  · exact .inl rfl

/-- TxFail: nothing, or the entry on the air is reported failed. -/
theorem txFail_cases (s : State) :
    txFail s = s ∨
    (s.radioState ≠ .rx ∧ ∃ e, s.current = some e ∧ txFail s = complete s e .failed) := by
  unfold txFail
  split
  · next e h1 h2 => exact .inr ⟨by simp [h1], e, h2, rfl⟩
  · next e h1 h2 => exact .inr ⟨by simp [h1], e, h2, rfl⟩
  · exact .inl rfl

/-- PreambleDone's effect as one update: the bytes go out, a free value is drawn or not. -/
theorem goOnAir_eq (s : State) (e : TxEntry) (bytes : List Byte) :
    ∃ n, ((s.emit (.frame e.opts.frequency bytes)).drawFor e).goOnAir =
      { s with air := s.air ++ [.frame e.opts.frequency bytes], freeIndex := n, radioState := .tx } := by
  unfold State.drawFor
  split <;> exact ⟨_, rfl⟩

/-- A completion report as one update: a frame is reported, a free value is drawn or not. -/
theorem complete_eq (s : State) (e : TxEntry) (status : TxStatus) :
    ∃ f n, complete s e status =
      { s with
        notifications := s.notifications ++ [.txComplete f status], freeIndex := n, radioState := .rx,
        current := none } := by
  unfold complete State.drawFor
  split <;> exact ⟨_, _, rfl⟩

/-- A disturbance touches the air log and the count of free values only. -/
theorem disturbAir_eq (s : State) : ∃ air n, s.disturbAir = { s with air := air, freeIndex := n } := by
  unfold State.disturbAir
  split <;> exact ⟨_, _, rfl⟩

/-- In `TX` the bytes that are going out become any value. -/
theorem disturbAir_of_tx {s : State} {log : List AirEvent} {channel : Nat} {bytes : List Byte}
    (hr : s.radioState = .tx) (ha : s.air = log ++ [.frame channel bytes]) :
    s.disturbAir = { s with
      air := log ++ [.frame channel (Config.strayBytes s.freeIndex)], freeIndex := s.freeIndex + 1 } := by
  simp [State.disturbAir, hr, ha]

/-- Outside `TX` nothing is going out. -/
theorem disturbAir_of_ne {s : State} (hr : s.radioState ≠ .tx) : s.disturbAir = s := by
  unfold State.disturbAir
  split
  · next h _ => exact absurd h hr
  · rfl

/-- A breach marks one owned entry, or none, or marks the one on the air and disturbs its bytes. -/
theorem breach_cases (s : State) (slot : Nat) (st : FrameStorage) :
    (s.current = none ∧ s.breach slot st = { s with txQueue := s.txQueue.modify slot fun e => e.breach st }) ∨
    (∃ c, s.current = some c ∧ slot = 0 ∧
      s.breach slot st = State.disturbAir { s with current := some (c.breach st) }) ∨
    ∃ c n, s.current = some c ∧ slot = n + 1 ∧
      s.breach slot st = { s with txQueue := s.txQueue.modify n fun e => e.breach st } := by
  unfold State.breach
  cases h : s.current with
  | none => exact .inl ⟨rfl, rfl⟩
  | some c =>
    cases slot with
    | zero => exact .inr (.inl ⟨c, rfl, rfl, rfl⟩)
    | succ n => exact .inr (.inr ⟨c, n, rfl, rfl, rfl⟩)

/-- A breach keeps every entry in its place, and all of it but its storage mark. -/
theorem breach_owned (s : State) (slot : Nat) (st : FrameStorage) :
    (s.breach slot st).owned = s.owned.modify slot fun e => e.breach st := by
  obtain ⟨hc, h⟩ | ⟨c, hc, rfl, h⟩ | ⟨c, n, hc, rfl, h⟩ := breach_cases s slot st <;> rw [h]
  · simp [State.owned, hc]
  · obtain ⟨air, n, hd⟩ := disturbAir_eq { s with current := some (c.breach st) }
    simp [State.owned, hc, hd]
  · simp [State.owned, hc]

/-- Marking one entry of a queue keeps the frames as they were handed over. -/
theorem map_frame_modify_breach (q : List TxEntry) (n : Nat) (st : FrameStorage) :
    (q.modify n fun e => e.breach st).map TxEntry.frame = q.map TxEntry.frame := by
  induction q generalizing n with
  | nil => simp
  | cons a q ih =>
    cases n with
    | zero => rfl
    | succ n => exact congrArg (a.frame :: ·) (ih n)

/-- A breach touches the owned entries, the air log and the count of free values, and no entry comes or goes. -/
theorem breach_eq (s : State) (slot : Nat) (st : FrameStorage) :
    ∃ queue current air n, (current = none ↔ s.current = none) ∧
      s.breach slot st = { s with txQueue := queue, current := current, air := air, freeIndex := n } := by
  obtain ⟨hc, h⟩ | ⟨c, hc, -, h⟩ | ⟨c, n, hc, -, h⟩ := breach_cases s slot st <;> rw [h]
  · exact ⟨_, s.current, _, _, Iff.rfl, rfl⟩
  · obtain ⟨air, n, hd⟩ := disturbAir_eq { s with current := some (c.breach st) }
    rw [hd]
    exact ⟨_, some (c.breach st), air, n, by simp [hc], rfl⟩
  · exact ⟨_, s.current, _, _, Iff.rfl, rfl⟩

/-- The host's turn taken while the callback runs is no arbiter event, and the others keep their order. -/
theorem takeHostTurn_some {l rest : List Turn} {t : Turn} (h : takeHostTurn l = some (t, rest)) :
    t.isArbiterEvent = false ∧ ∃ before after, l = before ++ t :: after ∧ rest = before ++ after ∧
      ∀ b ∈ before, b.isArbiterEvent = true := by
  induction l generalizing rest with
  | nil => simp [takeHostTurn] at h
  | cons a l ih =>
    unfold takeHostTurn at h
    split at h
    · next ha =>
      cases hl : takeHostTurn l with
      | none => simp [hl] at h
      | some p =>
        obtain ⟨b, r⟩ := p
        simp only [hl, Option.some.injEq, Prod.mk.injEq] at h
        obtain ⟨rfl, rfl⟩ := h
        obtain ⟨h1, before, after, h2, h3, h4⟩ := ih hl
        exact ⟨h1, a :: before, after, by simp [h2], by simp [h3], by simpa using ⟨ha, h4⟩⟩
    · next ha =>
      obtain ⟨rfl, rfl⟩ : a = t ∧ l = rest := by simpa using h
      exact ⟨by simpa using ha, [], l, by simp⟩

/-- While the callback runs and no turn can be taken, every turn is an arbiter event. -/
theorem takeHostTurn_none {l : List Turn} (h : takeHostTurn l = none) : ∀ t ∈ l, t.isArbiterEvent = true := by
  induction l with
  | nil => simp
  | cons a l ih =>
    unfold takeHostTurn at h
    split at h
    · next ha =>
      cases hl : takeHostTurn l with
      | none => simpa using ⟨ha, ih hl⟩
      | some p => simp [hl] at h
    · simp at h

end Sys2Proof.Machine
end

