-- ==== Sys2Proof/Laws/Bytes.lean ====
section
/-! SUPPORT. Byte strings of a fixed length: equality, bytes, XOR; what the two wraps do, said once. -/

namespace Sys2Proof

theorem Bytes.eq_of_data {n : Nat} {a b : Bytes n} (h : a.data = b.data) : a = b := by
  cases a
  cases b
  simp_all

theorem Bytes.get_eq_getElem {n : Nat} (a : Bytes n) (i : Nat) (h : i < n) :
    a.get i = a.data[i]'(by rw [a.size]; exact h) := by
  simp [Bytes.get, a.size, h]

theorem Bytes.get_xor {n : Nat} (a b : Bytes n) (i : Nat) (h : i < n) : (a.xor b).get i = a.get i ^^^ b.get i := by
  rw [Bytes.get_eq_getElem _ _ h, Bytes.get_eq_getElem _ _ h, Bytes.get_eq_getElem _ _ h]
  simp [Bytes.xor]

theorem Bytes.get_first {n k : Nat} (a : Bytes n) (hk : k ≤ n) (i : Nat) (h : i < k) : (a.first k hk).get i = a.get i := by
  rw [Bytes.get_eq_getElem _ _ h, Bytes.get_eq_getElem _ _ (by omega)]
  simp [Bytes.first]

@[simp] theorem Bytes.xor_xor {n : Nat} (a b : Bytes n) : a.xor (a.xor b) = b := by
  apply Bytes.eq_of_data
  apply List.ext_getElem
  · simp [Bytes.xor, a.size, b.size]
  · intro i h1 h2
    simp [Bytes.xor]

end Sys2Proof

namespace Sys2Proof.Machine

/-- The bytes of a 2W wrap: the key stream and the key. -/
theorem wrap2w_get (k : Bytes 16) (c : Bytes 6) (d : List Byte) (i : Nat) (h : i < 16) :
    (wrap2w k c d).get i = (aes transferKey (iv2w d c)).get i ^^^ k.get i :=
  Bytes.get_xor _ _ i h

/-- The bytes of a 1W wrap. -/
theorem wrap1w_get (a : Bytes 3) (k : Bytes 16) (i : Nat) (h : i < 16) :
    (wrap1w a k).get i = (aes transferKey (addressIv a)).get i ^^^ k.get i :=
  Bytes.get_xor _ _ i h

end Sys2Proof.Machine
end

