-- ==== Sys2Proof/Laws/Decode.lean ====
section
/-! SUPPORT. Each reader reads back what its writer wrote, and leaves what follows. -/

namespace Sys2Proof

@[simp] theorem readByte_cons (b : Byte) (r : List Byte) : readByte (b :: r) = some (b, r) := rfl

@[simp] theorem readBool_writeBool (b : Bool) (r : List Byte) : readBool (writeBool b ++ r) = some (b, r) := by
  cases b <;> rfl

theorem bit_cases (b : BitVec 1) : b = 0 ∨ b = 1 := by
  revert b; decide

@[simp] theorem readBit_writeBit (b : BitVec 1) (r : List Byte) : readBit (writeBit b ++ r) = some (b, r) := by
  obtain rfl | rfl := bit_cases b <;> rfl

@[simp] theorem readBytes_append {n : Nat} (v : Bytes n) (r : List Byte) : readBytes n (v.data ++ r) = some (v, r) := by
  obtain ⟨d, rfl⟩ := v
  simp [readBytes]

@[simp] theorem readString_writeString (s r : List Byte) : readString (writeString s ++ r) = some (s, r) := by
  induction s with
  | nil => cases r <;> simp [writeString, readString]
  | cons b s ih => simp [writeString, readString, ih]

theorem ofDigits_digits (fuel n : Nat) (h : n ≤ fuel) : ofDigits (digits fuel n) = n := by
  induction fuel generalizing n with
  | zero => simp [digits, ofDigits]; omega
  | succ fuel ih =>
    unfold digits
    split
    · simp [ofDigits, *]
    · simp only [ofDigits, BitVec.toNat_ofNat]
      rw [ih (n / 256) (by omega)]
      omega

@[simp] theorem readNat_writeNat (n : Nat) (r : List Byte) : readNat (writeNat n ++ r) = some (n, r) := by
  simp [readNat, writeNat, ofDigits_digits n n (Nat.le_refl n)]

@[simp] theorem readFrame_writeFrame (f : Frame) (r : List Byte) : readFrame (writeFrame f ++ r) = some (f, r) := by
  simp [readFrame, writeFrame, List.append_assoc]

@[simp] theorem readOpts_writeOpts (o : SendOpts) (r : List Byte) : readOpts (writeOpts o ++ r) = some (o, r) := by
  simp [readOpts, writeOpts, List.append_assoc]

@[simp] theorem readHeader_writeHeader (h : FrameHeader) (r : List Byte) :
    readHeader (writeHeader h ++ r) = some (h, r) := by
  simp [readHeader, writeHeader, List.append_assoc]

@[simp] theorem readBroadcast_writeBroadcast (h : BroadcastHeader) (r : List Byte) :
    readBroadcast (writeBroadcast h ++ r) = some (h, r) := by
  simp [readBroadcast, writeBroadcast, List.append_assoc]

@[simp] theorem readPassage_writePassage (p : Passage) (r : List Byte) :
    readPassage (writePassage p ++ r) = some (p, r) := by
  cases p <;> simp [readPassage, writePassage]

end Sys2Proof
end

