-- ==== Sys2Proof/Laws/Exec.lean ====
section
/-! SUPPORT. What an instruction can do, and what a turn can do, said once: no proof over all instructions or all turns
unfolds exec or runTurn. -/

namespace Sys2Proof.Machine

theorem encodeFrame_cases (f : Frame) (s : State) :
    (∃ bytes, frameEnc f = .ok bytes ∧ encodeFrame f s = s.finish (.encoded bytes)) ∨
    ∃ e, frameEnc f = .error e ∧ encodeFrame f s = s.raise e := by
  unfold encodeFrame
  cases frameEnc f with
  | ok bytes => exact .inl ⟨bytes, rfl, rfl⟩
  | error e => exact .inr ⟨e, rfl, rfl⟩

theorem decodeFrame_cases (x : List Byte) (s : State) :
    (∃ f, frameDec x = .ok f ∧ decodeFrame x s = s.finish (.decoded f)) ∨
    ∃ e, frameDec x = .error e ∧ decodeFrame x s = s.raise e := by
  unfold decodeFrame
  cases frameDec x with
  | ok f => exact .inl ⟨f, rfl, rfl⟩
  | error e => exact .inr ⟨e, rfl, rfl⟩

/-- SELFTEST writes a result and nothing else, whatever the vectors give. -/
theorem selfTest_cases (s : State) : ∃ r, r ≠ .accepted ∧ selfTest s = s.finish r := by
  unfold selfTest
  generalize firstFailure 1 selfTestChecks = o
  cases o with
  | none => exact ⟨.pass, nofun, rfl⟩
  | some i => exact ⟨.error (.selfTestFail i), nofun, rfl⟩

/-- A frame that goes both ways is sent, or arrives. -/
theorem passFrame_cases (f : Frame) (p : Passage) (s : State) :
    (∃ o, p = .send o ∧ passFrame f p s = sendFrame f o s) ∨ (p = .receive ∧ passFrame f p s = receiveFrame f s) := by
  cases p with
  | send o => exact .inl ⟨o, rfl, rfl⟩
  | receive => exact .inr ⟨rfl, rfl⟩

/-- Every instruction writes its result only, and accepts nothing, or is a wrap in place, or sets the callback, or sends, or arrives. -/
theorem exec_cases (i : Instr) (s : State) :
    (∃ r, r ≠ .accepted ∧ exec i s = .next (s.finish r)) ∨
    (∃ a k, (i = .wrap1w a k ∨ i = .unwrap1w a k) ∧
      exec i s = .next ((s.storeCallerKey (wrap1w a k)).finish (.block (wrap1w a k)))) ∨
    (∃ cb, i = .onReceive cb ∧ exec i s = .next ((s.setCallback cb).finish .nothing)) ∨
    (∃ f o, exec i s = .next (sendFrame f o s)) ∨
    ∃ f, exec i s = .next (receiveFrame f s) := by
  cases i
  case wrap1w a k => exact .inr (.inl ⟨a, k, .inl rfl, rfl⟩)
  case unwrap1w a k => exact .inr (.inl ⟨a, k, .inr rfl, rfl⟩)
  case onReceive cb => exact .inr (.inr (.inl ⟨cb, rfl, rfl⟩))
  case frameEnc f =>
    obtain ⟨b, -, h⟩ | ⟨e, -, h⟩ := encodeFrame_cases f s
    · exact .inl ⟨.encoded b, nofun, congrArg Host.Outcome.next h⟩
    · exact .inl ⟨.error e, nofun, congrArg Host.Outcome.next h⟩
  case frameDec x =>
    obtain ⟨f, -, h⟩ | ⟨e, -, h⟩ := decodeFrame_cases x s
    · exact .inl ⟨.decoded f, nofun, congrArg Host.Outcome.next h⟩
    · exact .inl ⟨.error e, nofun, congrArg Host.Outcome.next h⟩
  case selftest =>
    obtain ⟨r, hr, h⟩ := selfTest_cases s
    exact .inl ⟨r, hr, congrArg Host.Outcome.next h⟩
  case cmd30 h w t p =>
    obtain ⟨o, -, hp⟩ | ⟨-, hp⟩ := passFrame_cases (headedFrame h 0x30 (w.data ++ t)) p s
    · exact .inr (.inr (.inr (.inl ⟨_, o, congrArg Host.Outcome.next hp⟩)))
    · exact .inr (.inr (.inr (.inr ⟨_, congrArg Host.Outcome.next hp⟩)))
  case cmd38 h c p =>
    obtain ⟨o, -, hp⟩ | ⟨-, hp⟩ := passFrame_cases (headedFrame h 0x38 c.data) p s
    · exact .inr (.inr (.inr (.inl ⟨_, o, congrArg Host.Outcome.next hp⟩)))
    · exact .inr (.inr (.inr (.inr ⟨_, congrArg Host.Outcome.next hp⟩)))
  case cmd3C h c p =>
    obtain ⟨o, -, hp⟩ | ⟨-, hp⟩ := passFrame_cases (headedFrame h 0x3C c.data) p s
    · exact .inr (.inr (.inr (.inl ⟨_, o, congrArg Host.Outcome.next hp⟩)))
    · exact .inr (.inr (.inr (.inr ⟨_, congrArg Host.Outcome.next hp⟩)))
  case cmd3D h m p =>
    obtain ⟨o, -, hp⟩ | ⟨-, hp⟩ := passFrame_cases (headedFrame h 0x3D m.data) p s
    · exact .inr (.inr (.inr (.inl ⟨_, o, congrArg Host.Outcome.next hp⟩)))
    · exact .inr (.inr (.inr (.inr ⟨_, congrArg Host.Outcome.next hp⟩)))
  case send f o | cmd00 h p o | cmd03 h o | cmd28 h o | cmd2A h p o | cmd2C h o | cmd2E h o | cmd31 h o | cmd32 h w o
      | cmd36 h o | cmd50 h o | cmd54 h o | cmd56 h o =>
    exact .inr (.inr (.inr (.inl ⟨_, _, rfl⟩)))
  case cmd04 h p | cmd29 h p | cmd2D h | cmd2F h st | cmd33 h | cmd37 h a | cmd51 h n | cmd55 h n | cmd57 h n
      | cmdFE h st more =>
    exact .inr (.inr (.inr (.inr ⟨_, rfl⟩)))
  all_goals exact .inl ⟨_, fun h => OpResult.noConfusion h, rfl⟩

/-- What a turn that answers a next state has done to the state. -/
inductive TurnEffect (turn : Turn) (s t : State) : Prop
  | nothing (h : t = s)
  | result (r : Option OpResult) (key : Bytes 16) (cb : Option Nat) (turnedAway : r ≠ some .accepted)
      (h : t = { s with result := r, callerKey := key, rxCallback := cb })
  | accepted (f : Frame) (o : SendOpts) (bytes : List Byte) (radio : s.radioState = .rx)
      (room : s.txQueue.length ≠ Config.txqDepth) (enc : frameEnc f = .ok bytes)
      (h : t = (s.enqueue (newEntry s.now f bytes o)).finish .accepted)
  | callback (f : Frame) (cb : Nat) (radio : s.radioState = .rx) (idle : s.running = none) (reg : s.rxCallback = some cb)
      (h : t = s.enterCallback cb f)
  | returned (h : t = s.returnFromCallback)
  | breached (slot : Nat) (st : FrameStorage) (host : turn.isArbiterEvent = false)
      (which : (∃ f, turn = .frameChanged slot f) ∨ turn = .frameFreed slot) (h : t = s.breach slot st)
  | started (e : TxEntry) (rest : List TxEntry) (which : turn = .startTx) (radio : s.radioState = .rx)
      (entry : eligible s.now s.txQueue = some (e, rest))
      (h : t = (s.emit (.preamble e.opts.frequency e.opts.shortPreamble)).beginTx e rest)
  | onAir (e : TxEntry) (which : turn = .preambleDone) (radio : s.radioState = .preamble) (entry : s.current = some e)
      (h : t = ((s.emit (.frame e.opts.frequency (sentBytes s.freeIndex e))).drawFor e).goOnAir)
  | repeats (e : TxEntry) (which : turn = .txDone) (radio : s.radioState = .tx) (entry : s.current = some e)
      (owed : 0 < e.repeatsLeft) (more : repeatsContinue e s.txQueue = true)
      (h : t = s.endTx.requeue (repeated s.now e))
  | done (e : TxEntry) (which : turn = .txDone) (radio : s.radioState = .tx) (entry : s.current = some e)
      (last : ¬ (0 < e.repeatsLeft ∧ repeatsContinue e s.txQueue = true)) (h : t = complete s e .transmitted)
  | failed (e : TxEntry) (which : turn = .txFail) (radio : s.radioState ≠ .rx) (entry : s.current = some e)
      (h : t = complete s e .failed)
  | clocked (ms : Nat) (which : turn = .clock ms) (h : t = s.advanceClock ms)
  | wasReset (which : turn = .reset) (h : t = s.resetBlock)

theorem receiveFrame_effect (turn : Turn) (f : Frame) (s : State) : TurnEffect turn s (receiveFrame f s) := by
  obtain h | ⟨h1, h2, g, cb, h3, h⟩ := receiveFrame_cases f s
  · exact .nothing h
  · exact .callback g cb h1 h2 h3 h

theorem sendFrame_effect (turn : Turn) (f : Frame) (o : SendOpts) (s : State) : TurnEffect turn s (sendFrame f o s) := by
  obtain ⟨-, h⟩ | ⟨-, -, h⟩ | ⟨-, -, e, -, h⟩ | ⟨h1, h2, b, h3, h⟩ := sendFrame_cases f o s
  · exact .result (some (.error .radioBusy)) s.callerKey s.rxCallback nofun h
  · exact .result (some (.error .radioBusy)) s.callerKey s.rxCallback nofun h
  · exact .result (some (.error e)) s.callerKey s.rxCallback nofun h
  · exact .accepted f o b h1 h2 h3 h

theorem exec_effect (turn : Turn) (i : Instr) (s t : State) (h : exec i s = .next t) : TurnEffect turn s t := by
  obtain ⟨r, hr, he⟩ | ⟨a, k, -, he⟩ | ⟨cb, -, he⟩ | ⟨f, o, he⟩ | ⟨f, he⟩ := exec_cases i s
  all_goals
    rw [he] at h
    simp only [Host.Outcome.next.injEq] at h
    subst h
  · exact .result (some r) s.callerKey s.rxCallback (by simpa using hr) rfl
  · exact .result (some (.block (wrap1w a k))) (wrap1w a k) s.rxCallback nofun rfl
  · exact .result (some .nothing) s.callerKey (some cb) nofun rfl
  · exact sendFrame_effect turn f o s
  · exact receiveFrame_effect turn f s

theorem runTurn_effect (turn : Turn) (s t : State) (h : runTurn turn s = .next t) : TurnEffect turn s t := by
  cases turn <;> simp only [runTurn] at h
  case operation request =>
    cases hd : decodeOperation request with
    | ok i => rw [hd] at h; exact exec_effect _ i s t h
    | error e =>
      rw [hd] at h
      cases e <;> simp at h
      exact .result (some (.error (.unknownOp _))) s.callerKey s.rxCallback nofun h.symm
  case command request =>
    cases hd : decodeCommand request with
    | ok i => rw [hd] at h; exact exec_effect _ i s t h
    | error e => rw [hd] at h; simp at h
  all_goals
    simp only [Host.Outcome.next.injEq] at h
    subst h
  case callbackReturns => exact .returned rfl
  case frameChanged slot f => exact .breached slot (.changed f) rfl (.inl ⟨f, rfl⟩) rfl
  case frameFreed slot => exact .breached slot .freed rfl (.inr rfl) rfl
  case startTx =>
    obtain h | ⟨h1, e, r, h2, h⟩ := startTx_cases s
    · exact .nothing h
    · exact .started e r rfl h1 h2 h
  case preambleDone =>
    obtain h | ⟨h1, e, h2, h⟩ := preambleDone_cases s
    · exact .nothing h
    · exact .onAir e rfl h1 h2 h
  case txDone =>
    obtain h | ⟨h1, e, h2, h3, h4, h⟩ | ⟨h1, e, h2, h3, h⟩ := txDone_cases s
    · exact .nothing h
    · exact .repeats e rfl h1 h2 h3 h4 h
    · exact .done e rfl h1 h2 h3 h
  case txFail =>
    obtain h | ⟨h1, e, h2, h⟩ := txFail_cases s
    · exact .nothing h
    · exact .failed e rfl h1 h2 h
  case rxFrame x =>
    obtain h | ⟨h1, h2, f, cb, -, h3, h⟩ := rxFrame_cases x s
    · exact .nothing h
    · exact .callback f cb h1 h2 h3 h
  case clock ms => exact .clocked ms rfl rfl
  case reset => exact .wasReset rfl rfl

/-- What a step with a turn has done to the state without it. -/
theorem step_effect {s t : State} {turn : Turn} {rest : List Turn} (hn : nextTurn s = some (turn, rest))
    (h : step s = .next t) : TurnEffect turn { s with inputs := rest } t := by
  unfold step at h
  rw [hn] at h
  exact runTurn_effect turn _ t h

/-- While the callback runs, the next turn is no arbiter event. -/
theorem nextTurn_running {s : State} {turn : Turn} {rest : List Turn} (hn : nextTurn s = some (turn, rest))
    (hr : s.running ≠ none) : turn.isArbiterEvent = false := by
  unfold nextTurn at hn
  cases h : s.running with
  | none => exact absurd h hr
  | some p =>
    rw [h] at hn
    exact (takeHostTurn_some hn).1

end Sys2Proof.Machine
end

