-- ==== Sys2Proof/Laws/Runs.lean ====
section
/-! SUPPORT. What one step can do in `RX`, and what it can do out of it; when `StartTx` finds an entry. For claims about
runs. -/

namespace Sys2Proof.Machine

/-- Marking one entry of a queue keeps its head, the storage mark apart. -/
theorem modify_breach_cons (n : Nat) (st : FrameStorage) (e : TxEntry) (tail : List TxEntry) :
    ∃ st' tail', ((e :: tail).modify n fun e => e.breach st) = { e with storage := st' } :: tail' := by
  cases n with
  | zero => exact ⟨_, tail, rfl⟩
  | succ n => exact ⟨e.storage, _, rfl⟩

/-- An entry that StartTx takes can start. -/
theorem canStart_of_eligible {s : State} {e : TxEntry} {rest : List TxEntry} (hr : s.radioState = .rx)
    (h : eligible s.now s.txQueue = some (e, rest)) : s.canStart e := by
  obtain ⟨before, after, h1, -, h3, -, h5⟩ := eligible_some h
  refine ⟨hr, before, after, h1, h3, fun d hd => ?_⟩
  have := h5 d hd
  simp only [holdsBack, Bool.and_eq_false_iff] at this
  exact this

/-- When an entry can start, StartTx finds one. -/
theorem eligible_of_canStart {s : State} {e : TxEntry} (h : s.canStart e) :
    ∃ d rest, eligible s.now s.txQueue = some (d, rest) := by
  obtain ⟨-, before, after, h1, h3, h4⟩ := h
  have due : ∀ q : List TxEntry, e ∈ q → ∃ d rest, oldestDue s.now q = some (d, rest) := by
    intro q hq
    cases ho : oldestDue s.now q with
    | none => exact absurd (oldestDue_none ho e hq) (by omega)
    | some p => exact ⟨p.1, p.2, rfl⟩
  rw [h1]
  cases before with
  | nil =>
    simp only [List.nil_append, eligible]
    split
    · exact ⟨e, after, by simp⟩
    · exact due _ (by simp)
  | cons x before =>
    have hx : holdsBack x = false := by
      simpa only [holdsBack, Bool.and_eq_false_iff] using h4 x (by simp)
    simp only [List.cons_append, eligible, hx]
    exact due (x :: (before ++ e :: after)) (by simp)

/-- A step in `RX`: a reset, or an entry is started, or the radio stays in `RX`, the clock does not go back, and the queue grows
at its tail or has one entry marked. -/
theorem step_in_rx {s t : State} {turn : Turn} {rest : List Turn} (hn : nextTurn s = some (turn, rest))
    (hs : step s = .next t) (hr : s.radioState = .rx) :
    turn = .reset ∨
    (turn = .startTx ∧ t.radioState = .preamble ∧
      ∃ e queue, eligible s.now s.txQueue = some (e, queue) ∧ t.current = some e) ∨
    (t.radioState = .rx ∧ s.now ≤ t.now ∧
      ((∃ more, t.txQueue = s.txQueue ++ more) ∨ ∃ n st, t.txQueue = s.txQueue.modify n fun e => e.breach st)) := by
  have same : ∀ q : List TxEntry, ∃ more, q = q ++ more := fun q => ⟨[], by simp⟩
  cases step_effect hn hs with
  | nothing h => subst h; exact .inr (.inr ⟨hr, le_refl _, .inl (same _)⟩)
  | result r k cb _ h => subst h; exact .inr (.inr ⟨hr, le_refl _, .inl (same _)⟩)
  | accepted f o b _ _ _ h => subst h; exact .inr (.inr ⟨hr, le_refl _, .inl ⟨_, rfl⟩⟩)
  | callback f c _ _ _ h => subst h; exact .inr (.inr ⟨hr, le_refl _, .inl (same _)⟩)
  | returned h => subst h; exact .inr (.inr ⟨hr, le_refl _, .inl (same _)⟩)
  | breached slot st _ _ h =>
    subst h
    obtain ⟨-, h⟩ | ⟨c, -, -, h⟩ | ⟨c, n, -, -, h⟩ := breach_cases { s with inputs := rest } slot st <;> rw [h]
    · exact .inr (.inr ⟨hr, le_refl _, .inr ⟨_, _, rfl⟩⟩)
    · rw [disturbAir_of_ne (by simp [hr])]
      exact .inr (.inr ⟨hr, le_refl _, .inl (same _)⟩)
    · exact .inr (.inr ⟨hr, le_refl _, .inr ⟨_, _, rfl⟩⟩)
  | started e q ht _ he h => subst h; exact .inr (.inl ⟨ht, rfl, e, q, he, rfl⟩)
  | onAir e _ k _ _ => exact absurd (hr.symm.trans k) (by simp)
  | repeats e _ k _ _ _ _ => exact absurd (hr.symm.trans k) (by simp)
  | done e _ k _ _ _ => exact absurd (hr.symm.trans k) (by simp)
  | failed e _ k _ _ => exact absurd hr k
  | clocked ms _ h => subst h; exact .inr (.inr ⟨hr, Nat.le_add_right _ _, .inl (same _)⟩)
  | wasReset ht _ => exact .inl ht

/-- A step out of `RX`: back to `RX` by a reset, the end or the failure of the transmission; or on from `PREAMBLE` to `TX`; or the
radio stays as it is. -/
theorem step_busy {s t : State} {turn : Turn} {rest : List Turn} (hn : nextTurn s = some (turn, rest))
    (hs : step s = .next t) (hr : s.radioState ≠ .rx) :
    ((turn = .reset ∨ turn = .txDone ∨ turn = .txFail) ∧ t.radioState = .rx) ∨
    (turn = .preambleDone ∧ s.radioState = .preamble ∧ t.radioState = .tx) ∨ t.radioState = s.radioState := by
  cases step_effect hn hs with
  | nothing h => subst h; exact .inr (.inr rfl)
  | result r k cb _ h => subst h; exact .inr (.inr rfl)
  | accepted f o b k _ _ _ => exact absurd k hr
  | callback f c k _ _ _ => exact absurd k hr
  | returned h => subst h; exact .inr (.inr rfl)
  | breached slot st _ _ h =>
    obtain ⟨q, c, a, n, -, hb⟩ := breach_eq { s with inputs := rest } slot st
    rw [hb] at h
    subst h
    exact .inr (.inr rfl)
  | started e q _ k _ _ => exact absurd k hr
  | onAir e ht k _ h => subst h; exact .inr (.inl ⟨ht, k, rfl⟩)
  | repeats e ht _ _ _ _ h => subst h; exact .inl ⟨.inr (.inl ht), rfl⟩
  | done e ht _ _ _ h => subst h; exact .inl ⟨.inr (.inl ht), rfl⟩
  | failed e ht _ _ h => subst h; exact .inl ⟨.inr (.inr ht), rfl⟩
  | clocked ms _ h => subst h; exact .inr (.inr rfl)
  | wasReset ht h => subst h; exact .inl ⟨.inl ht, rfl⟩

end Sys2Proof.Machine
end

