-- ==== Sys2Proof/Tests/Slice0.lean ====
section
/-! SUPPORT. The tests: each ill-formed term is refused, each constructor's words are decoded, each instruction and each
event gives what the spec's own tables print, and each statement's hypotheses are met by a named witness. Where a theorem
names no source, its expected value is written out from the rule its subject cites. -/

namespace Sys2Proof.Tests

open Sys2Proof.Machine Sys2Proof.Claims

set_option Elab.async false

/-! ### Operands -/

/-- 95_test_vectors.md, S1 to S6: controller `BA 11 AD`, peer `A1 B2 C3`, both fragment bits set. -/
def header : FrameHeader := ⟨0, 1, 1, 0x00, ⟨[0xBA, 0x11, 0xAD], rfl⟩, ⟨[0xA1, 0xB2, 0xC3], rfl⟩⟩

def peer : FrameHeader := ⟨0, 1, 1, 0x00, ⟨[0xA1, 0xB2, 0xC3], rfl⟩, ⟨[0xBA, 0x11, 0xAD], rfl⟩⟩

def everyone : BroadcastHeader := ⟨0, 1, 1, 0x00, ⟨[0xBA, 0x11, 0xAD], rfl⟩⟩

def toPeer (cmd : Byte) (payload : List Byte) : Frame := peerFrame header 0x00 cmd payload

def fromPeer (cmd : Byte) (payload : List Byte) : Frame := peerFrame peer 0x00 cmd payload

def options : SendOpts := ⟨1, 50, 2, true, false, 300⟩

/-- 95_test_vectors.md P1, step 3. -/
def wrappedKey : Bytes 16 :=
  ⟨[0xE5, 0x83, 0x83, 0xC9, 0xD8, 0x09, 0xEB, 0xBD, 0x45, 0x6C, 0xA8, 0x70, 0xB8, 0x58, 0xD2, 0x45], rfl⟩

/-- 95_test_vectors.md S1, frame 4. -/
def macBytes : Bytes 6 := ⟨[0x42, 0xCD, 0x54, 0x0F, 0x41, 0x7D], rfl⟩

/-- 95_test_vectors.md S1: "MyPlug" and ten zeros. -/
def plugName : Bytes 16 :=
  ⟨[0x4D, 0x79, 0x50, 0x6C, 0x75, 0x67, 0x00, 0x00, 0x00, 0x00, 0x00, 0x00, 0x00, 0x00, 0x00, 0x00], rfl⟩

/-- A record with `n` payload bytes. -/
def longFrame (n : Nat) : Frame := toPeer 0x2A (List.replicate n 0xFF)

/-- 44_crc_frame.md R170, first row. -/
def keyFrame : List Byte :=
  [0x18, 0x04, 0xF0, 0x0F, 0x00, 0xFE, 0xEF, 0xEE, 0x32, 0xEA, 0x42, 0x5A, 0x7A, 0x18, 0x28, 0x85, 0xD4, 0xEA, 0xEE,
    0xFD, 0x41, 0x6D, 0x62, 0x5E, 0x01, 0x63, 0x79]

/-- R170, fourth row: every field zero, no payload. -/
def zeroFrame : List Byte := [0x08, 0x00, 0x00, 0x00, 0x00, 0x00, 0x00, 0x00, 0x00, 0xCA, 0x7F]

/-- R170, seventh row: the 1W frame, 37 bytes. -/
def oneWayFrame : List Byte :=
  [0xFC, 0x00, 0x00, 0x00, 0x3F, 0xAB, 0xCD, 0xEF, 0x30, 0x7E, 0x60, 0x49, 0x1F, 0x97, 0x6A, 0xDF, 0x65, 0x3D, 0xB0,
    0xED, 0x78, 0x5E, 0x49, 0xA2, 0x01, 0x02, 0x01, 0x12, 0x34, 0x19, 0xE8, 0x1E, 0xC4, 0x3D, 0x5E, 0x9B, 0xF2]

/-! ### States -/

/-- In `RX` at 1000 ms with a callback, nothing queued. -/
def idle : State := { State.reset with now := 1000, rxCallback := some 7 }

/-- The state, if there is one. -/
def after : Host.Outcome State Fault Refusal → Option State
  | .next s => some s
  | .fault _ => none
  | .refused _ => none

/-- What an instruction answers from `idle`. -/
def answer (i : Instr) : Option OpResult := (after (exec i idle)).bind State.result

/-- The bytes an instruction queues from `idle`. -/
def queued (i : Instr) : Option (List (List Byte)) := (after (exec i idle)).map fun s => s.txQueue.map TxEntry.bytes

/-- What an instruction reports from `idle`. -/
def reported (i : Instr) : Option (List Notification) := (after (exec i idle)).map State.notifications

/-- The state with one turn to come. -/
def turn (t : Turn) (s : State) : State := { s with inputs := [t] }

/-- 95_test_vectors.md P3: the options of A, and those of B and C. -/
def optionsA : SendOpts := ⟨1, 200, 1, true, false, 250⟩

def optionsB : SendOpts := ⟨1, 0, 0, false, true, 0⟩

/-- P3: the entries A and B, with A's bytes of `0x28` and B's of `0x2C`. -/
def entryA : TxEntry :=
  ⟨everyoneFrame everyone 0x00 0x28 [], [0xC8, 0x00, 0xBA, 0x11, 0xAD, 0x00, 0x00, 0x3B, 0x28, 0x15, 0xCB], optionsA, 1250,
    1, false, .intact⟩

def entryB : TxEntry :=
  ⟨toPeer 0x2C [], [0xC8, 0x00, 0xBA, 0x11, 0xAD, 0xA1, 0xB2, 0xC3, 0x2C, 0x85, 0xBE], optionsB, 1010, 0, false, .intact⟩

/-- P3 at 1345: A waits for its repeat. -/
def waitingA : TxEntry := { entryA with dueAt := 1545, repeatsLeft := 0, firstDone := true }

/-- P3 at 1010. -/
def twoQueued : State := { idle with now := 1010, txQueue := [entryA, entryB] }

/-- An entry with the preamble on the air, and with its bytes on the air. -/
def inPreamble (e : TxEntry) : State := { idle with radioState := .preamble, current := some e }

def onAir (e : TxEntry) : State := { idle with now := 1345, radioState := .tx, current := some e }

/-- B with its storage breached, and B with its bytes in the air log. -/
def breached (st : FrameStorage) : TxEntry := { entryB with storage := st }

def sending : State := { onAir entryB with air := [.frame 1 entryB.bytes] }

/-- The callback runs, with a reception and an operation to come. -/
def inCallback : State :=
  { idle with running := some (7, fromPeer 0x2D []), inputs := [.rxFrame zeroFrame, .startTx, .callbackReturns] }

/-- The queue is full. -/
def full : State := { idle with txQueue := List.replicate Config.txqDepth entryA }

/-! ### Ill-formed terms -/

theorem test_frame_data_too_long_is_ill_formed :
    (Instr.iv2w (List.replicate (Config.fdMax + 1) 0) testChallenge).wellFormed = false ∧
      (Instr.iv1w (List.replicate (Config.fdMax + 1) 0) testSequence).wellFormed = false ∧
      (Instr.wrap2w testKeyA testChallenge (List.replicate (Config.fdMax + 1) 0)).wellFormed = false ∧
      (Instr.mac2w testChallenge testKeyA (List.replicate (Config.fdMax + 1) 0)).wellFormed = false ∧
      (Instr.mac1w testSequence testKeyA (List.replicate (Config.fdMax + 1) 0)).wellFormed = false ∧
      (Instr.unwrap2w testKeyA testChallenge (List.replicate (Config.fdMax + 1) 0)).wellFormed = false ∧
      (Instr.cks (List.replicate (Config.fdMax + 1) 0)).wellFormed = false := by
  simp [Instr.wellFormed, frameDataFits]

theorem test_frame_data_of_22_is_well_formed : (Instr.cks (List.replicate 22 0)).wellFormed = true := by
  simp [Instr.wellFormed, frameDataFits, Config.fdMax]

theorem test_unknown_channel_is_ill_formed :
    (Instr.send (toPeer 0x2C []) { options with frequency := Config.nChannels }).wellFormed = false ∧
      (Instr.cmd2C header { options with frequency := Config.nChannels }).wellFormed = false ∧
      (Instr.cmd3C header testChallenge (.send { options with frequency := Config.nChannels })).wellFormed = false := by
  simp [Instr.wellFormed, SendOpts.wellFormed, Passage.wellFormed]

theorem test_second_channel_is_well_formed : (Instr.cmd2C header options).wellFormed = true := by
  simp [Instr.wellFormed, SendOpts.wellFormed, options, Config.nChannels]

theorem test_crc_check_of_one_byte_is_ill_formed :
    (Instr.crcCheck [0x00]).wellFormed = false ∧ (Instr.crcCheck [0x00, 0x00]).wellFormed = true := by
  decide

theorem test_arriving_payload_too_long_is_ill_formed :
    (Instr.cmd04 peer (List.replicate 22 0)).wellFormed = false ∧
      (Instr.cmdFE peer 0x08 (List.replicate 21 0)).wellFormed = false ∧
      (Instr.cmd04 peer (List.replicate 21 0)).wellFormed = true ∧
      (Instr.cmdFE peer 0x08 (List.replicate 20 0)).wellFormed = true := by
  decide

/-- 44_crc_frame.md R169. -/
theorem test_frame_of_22_is_ill_formed : (longFrame 22).wellFormed = false ∧ (longFrame 21).wellFormed = true := by
  decide

/-! ### Words: 30_encoding.md R85 and R90 for the code, 10_state.md R25 for the operands, assumption 2 for their bytes -/

theorem test_decode_cksStep :
    decodeOperation [0x01, 0x31, 0x00, 0x62] = .ok (.cksStep 0x31 0x00 0x62) := by
  rfl

theorem test_decode_iv2w :
    decodeOperation [0x02, 0x01, 0x31, 0x00, 0x12, 0x34, 0x56, 0x78, 0x9A, 0xBC] = .ok (.iv2w [0x31] testChallenge) := by
  rfl

theorem test_decode_iv1w :
    decodeOperation [0x03, 0x01, 0x30, 0x01, 0x7E, 0x00, 0x12, 0x34] = .ok (.iv1w [0x30, 0x7E] testSequence) := by
  rfl

theorem test_decode_aesEnc :
    decodeOperation [0x10, 0x01, 0x02, 0x03, 0x04, 0x05, 0x06, 0x07, 0x08, 0x09, 0x10, 0x11, 0x12, 0x13, 0x14, 0x15,
      0x16, 0xAB, 0xCD, 0xEF, 0x01, 0x02, 0x03, 0x04, 0x05, 0x06, 0x07, 0x08, 0x09, 0x10, 0x11, 0x12, 0x13] = .ok
      (.aesEnc testKeyA testKeyB) := by
  rfl

theorem test_decode_wrap2w :
    decodeOperation [0x20, 0xAB, 0xCD, 0xEF, 0x01, 0x02, 0x03, 0x04, 0x05, 0x06, 0x07, 0x08, 0x09, 0x10, 0x11, 0x12,
      0x13, 0x12, 0x34, 0x56, 0x78, 0x9A, 0xBC, 0x01, 0x38, 0x00] = .ok (.wrap2w testKeyB testChallenge [0x38]) := by
  rfl

theorem test_decode_wrap1w :
    decodeOperation [0x22, 0xAB, 0xCD, 0xEF, 0x01, 0x02, 0x03, 0x04, 0x05, 0x06, 0x07, 0x08, 0x09, 0x10, 0x11, 0x12,
      0x13, 0x14, 0x15, 0x16] = .ok (.wrap1w testAddress testKeyA) := by
  rfl

theorem test_decode_mac2w :
    decodeOperation [0x30, 0x12, 0x34, 0x56, 0x78, 0x9A, 0xBC, 0xAB, 0xCD, 0xEF, 0x01, 0x02, 0x03, 0x04, 0x05, 0x06,
      0x07, 0x08, 0x09, 0x10, 0x11, 0x12, 0x13, 0x01, 0x32, 0x00] = .ok (.mac2w testChallenge testKeyB [0x32]) := by
  rfl

theorem test_decode_mac1w :
    decodeOperation [0x31, 0x12, 0x34, 0x01, 0x02, 0x03, 0x04, 0x05, 0x06, 0x07, 0x08, 0x09, 0x10, 0x11, 0x12, 0x13,
      0x14, 0x15, 0x16, 0x01, 0x30, 0x00] = .ok (.mac1w testSequence testKeyA [0x30]) := by
  rfl

theorem test_decode_crc16 :
    decodeOperation [0x40, 0x01, 0xAB, 0x01, 0xCD, 0x00] = .ok (.crc16 [0xAB, 0xCD]) := by
  rfl

theorem test_decode_frameEnc :
    decodeOperation [0x41, 0x00, 0x01, 0x01, 0x00, 0xBA, 0x11, 0xAD, 0xA1, 0xB2, 0xC3, 0x2E, 0x01, 0x02, 0x00] = .ok
      (.frameEnc (toPeer 0x2E [0x02])) := by
  rfl

theorem test_decode_frameDec :
    decodeOperation [0x42, 0x01, 0x08, 0x01, 0x00, 0x00] = .ok (.frameDec [0x08, 0x00]) := by
  rfl

theorem test_decode_send :
    decodeOperation [0x50, 0x00, 0x01, 0x01, 0x00, 0xBA, 0x11, 0xAD, 0xA1, 0xB2, 0xC3, 0x2C, 0x00, 0x01, 0x01, 0x00,
      0x01, 0x32, 0x00, 0x01, 0x02, 0x00, 0x01, 0x00, 0x01, 0x2C, 0x01, 0x01, 0x00] = .ok (.send (toPeer 0x2C [])
      options) := by
  rfl

theorem test_decode_onReceive :
    decodeOperation [0x51, 0x01, 0x07, 0x00] = .ok (.onReceive 7) := by
  rfl

theorem test_decode_selftest :
    decodeOperation [0x5F] = .ok (.selftest) := by
  rfl

theorem test_decode_cmd00 :
    decodeCommand [0x00, 0x00, 0x01, 0x01, 0x00, 0xBA, 0x11, 0xAD, 0xA1, 0xB2, 0xC3, 0x01, 0xE7, 0x00, 0x00, 0x00,
      0x00, 0x01, 0x01, 0x00, 0x01, 0x32, 0x00, 0x01, 0x02, 0x00, 0x01, 0x00, 0x01, 0x2C, 0x01, 0x01, 0x00] = .ok
      (.cmd00 header plugOnPayload options) := by
  rfl

theorem test_decode_cmd03 :
    decodeCommand [0x03, 0x00, 0x01, 0x01, 0x00, 0xBA, 0x11, 0xAD, 0xA1, 0xB2, 0xC3, 0x01, 0x01, 0x00, 0x01, 0x32,
      0x00, 0x01, 0x02, 0x00, 0x01, 0x00, 0x01, 0x2C, 0x01, 0x01, 0x00] = .ok (.cmd03 header options) := by
  rfl

theorem test_decode_cmd04 :
    decodeCommand [0x04, 0x00, 0x01, 0x01, 0x00, 0xA1, 0xB2, 0xC3, 0xBA, 0x11, 0xAD, 0x01, 0x09, 0x01, 0x08, 0x00] =
      .ok (.cmd04 peer [0x09, 0x08]) := by
  rfl

theorem test_decode_cmd28 :
    decodeCommand [0x28, 0x00, 0x01, 0x01, 0x00, 0xBA, 0x11, 0xAD, 0x01, 0x01, 0x00, 0x01, 0x32, 0x00, 0x01, 0x02,
      0x00, 0x01, 0x00, 0x01, 0x2C, 0x01, 0x01, 0x00] = .ok (.cmd28 everyone options) := by
  rfl

theorem test_decode_cmd29 :
    decodeCommand [0x29, 0x00, 0x01, 0x01, 0x00, 0xA1, 0xB2, 0xC3, 0xBA, 0x11, 0xAD, 0x21, 0x22, 0x23, 0x24, 0x25,
      0x26, 0x27, 0x28, 0x29] = .ok (.cmd29 peer ⟨[0x21, 0x22, 0x23, 0x24, 0x25, 0x26, 0x27, 0x28, 0x29], rfl⟩) := by
  rfl

theorem test_decode_cmd2A :
    decodeCommand [0x2A, 0x00, 0x01, 0x01, 0x00, 0xBA, 0x11, 0xAD, 0x01, 0x02, 0x03, 0x04, 0x05, 0x06, 0x07, 0x08,
      0x09, 0x0A, 0x0B, 0x0C, 0x01, 0x01, 0x00, 0x01, 0x32, 0x00, 0x01, 0x02, 0x00, 0x01, 0x00, 0x01, 0x2C, 0x01,
      0x01, 0x00] = .ok (.cmd2A everyone ⟨[0x01, 0x02, 0x03, 0x04, 0x05, 0x06, 0x07, 0x08, 0x09, 0x0A, 0x0B, 0x0C],
      rfl⟩ options) := by
  rfl

theorem test_decode_cmd2C :
    decodeCommand [0x2C, 0x00, 0x01, 0x01, 0x00, 0xBA, 0x11, 0xAD, 0xA1, 0xB2, 0xC3, 0x01, 0x01, 0x00, 0x01, 0x32,
      0x00, 0x01, 0x02, 0x00, 0x01, 0x00, 0x01, 0x2C, 0x01, 0x01, 0x00] = .ok (.cmd2C header options) := by
  rfl

theorem test_decode_cmd2D :
    decodeCommand [0x2D, 0x00, 0x01, 0x01, 0x00, 0xA1, 0xB2, 0xC3, 0xBA, 0x11, 0xAD] = .ok (.cmd2D peer) := by
  rfl

theorem test_decode_cmd2E :
    decodeCommand [0x2E, 0x00, 0x01, 0x01, 0x00, 0xBA, 0x11, 0xAD, 0xA1, 0xB2, 0xC3, 0x01, 0x01, 0x00, 0x01, 0x32,
      0x00, 0x01, 0x02, 0x00, 0x01, 0x00, 0x01, 0x2C, 0x01, 0x01, 0x00] = .ok (.cmd2E header options) := by
  rfl

theorem test_decode_cmd2F :
    decodeCommand [0x2F, 0x00, 0x01, 0x01, 0x00, 0xA1, 0xB2, 0xC3, 0xBA, 0x11, 0xAD, 0x02] = .ok (.cmd2F peer 0x02) := by
  rfl

theorem test_decode_cmd30 :
    decodeCommand [0x30, 0x00, 0x01, 0x01, 0x00, 0xBA, 0x11, 0xAD, 0xA1, 0xB2, 0xC3, 0xE5, 0x83, 0x83, 0xC9, 0xD8,
      0x09, 0xEB, 0xBD, 0x45, 0x6C, 0xA8, 0x70, 0xB8, 0x58, 0xD2, 0x45, 0x01, 0x02, 0x01, 0x01, 0x00, 0x00, 0x01,
      0x01, 0x00, 0x01, 0x32, 0x00, 0x01, 0x02, 0x00, 0x01, 0x00, 0x01, 0x2C, 0x01, 0x01, 0x00] = .ok (.cmd30 header
      wrappedKey [0x02, 0x01] (.send options)) := by
  rfl

theorem test_decode_cmd31 :
    decodeCommand [0x31, 0x00, 0x01, 0x01, 0x00, 0xBA, 0x11, 0xAD, 0xA1, 0xB2, 0xC3, 0x01, 0x01, 0x00, 0x01, 0x32,
      0x00, 0x01, 0x02, 0x00, 0x01, 0x00, 0x01, 0x2C, 0x01, 0x01, 0x00] = .ok (.cmd31 header options) := by
  rfl

theorem test_decode_cmd32 :
    decodeCommand [0x32, 0x00, 0x01, 0x01, 0x00, 0xBA, 0x11, 0xAD, 0xA1, 0xB2, 0xC3, 0xE5, 0x83, 0x83, 0xC9, 0xD8,
      0x09, 0xEB, 0xBD, 0x45, 0x6C, 0xA8, 0x70, 0xB8, 0x58, 0xD2, 0x45, 0x01, 0x01, 0x00, 0x01, 0x32, 0x00, 0x01,
      0x02, 0x00, 0x01, 0x00, 0x01, 0x2C, 0x01, 0x01, 0x00] = .ok (.cmd32 header wrappedKey options) := by
  rfl

theorem test_decode_cmd33 :
    decodeCommand [0x33, 0x00, 0x01, 0x01, 0x00, 0xA1, 0xB2, 0xC3, 0xBA, 0x11, 0xAD] = .ok (.cmd33 peer) := by
  rfl

theorem test_decode_cmd36 :
    decodeCommand [0x36, 0x00, 0x01, 0x01, 0x00, 0xBA, 0x11, 0xAD, 0xA1, 0xB2, 0xC3, 0x01, 0x01, 0x00, 0x01, 0x32,
      0x00, 0x01, 0x02, 0x00, 0x01, 0x00, 0x01, 0x2C, 0x01, 0x01, 0x00] = .ok (.cmd36 header options) := by
  rfl

theorem test_decode_cmd37 :
    decodeCommand [0x37, 0x00, 0x01, 0x01, 0x00, 0xA1, 0xB2, 0xC3, 0xBA, 0x11, 0xAD, 0x07, 0x08, 0x09] = .ok (.cmd37
      peer ⟨[0x07, 0x08, 0x09], rfl⟩) := by
  rfl

theorem test_decode_cmd38 :
    decodeCommand [0x38, 0x00, 0x01, 0x01, 0x00, 0xA1, 0xB2, 0xC3, 0xBA, 0x11, 0xAD, 0x12, 0x34, 0x56, 0x78, 0x9A,
      0xBC, 0x01] = .ok (.cmd38 peer testChallenge .receive) := by
  rfl

theorem test_decode_cmd3C :
    decodeCommand [0x3C, 0x00, 0x01, 0x01, 0x00, 0xA1, 0xB2, 0xC3, 0xBA, 0x11, 0xAD, 0x12, 0x34, 0x56, 0x78, 0x9A,
      0xBC, 0x01] = .ok (.cmd3C peer testChallenge .receive) := by
  rfl

theorem test_decode_cmd3D :
    decodeCommand [0x3D, 0x00, 0x01, 0x01, 0x00, 0xBA, 0x11, 0xAD, 0xA1, 0xB2, 0xC3, 0x42, 0xCD, 0x54, 0x0F, 0x41,
      0x7D, 0x00, 0x01, 0x01, 0x00, 0x01, 0x32, 0x00, 0x01, 0x02, 0x00, 0x01, 0x00, 0x01, 0x2C, 0x01, 0x01, 0x00] =
      .ok (.cmd3D header macBytes (.send options)) := by
  rfl

theorem test_decode_cmd50 :
    decodeCommand [0x50, 0x00, 0x01, 0x01, 0x00, 0xBA, 0x11, 0xAD, 0xA1, 0xB2, 0xC3, 0x01, 0x01, 0x00, 0x01, 0x32,
      0x00, 0x01, 0x02, 0x00, 0x01, 0x00, 0x01, 0x2C, 0x01, 0x01, 0x00] = .ok (.cmd50 header options) := by
  rfl

theorem test_decode_cmd51 :
    decodeCommand [0x51, 0x00, 0x01, 0x01, 0x00, 0xA1, 0xB2, 0xC3, 0xBA, 0x11, 0xAD, 0x4D, 0x79, 0x50, 0x6C, 0x75,
      0x67, 0x00, 0x00, 0x00, 0x00, 0x00, 0x00, 0x00, 0x00, 0x00, 0x00] = .ok (.cmd51 peer plugName) := by
  rfl

theorem test_decode_cmd54 :
    decodeCommand [0x54, 0x00, 0x01, 0x01, 0x00, 0xBA, 0x11, 0xAD, 0xA1, 0xB2, 0xC3, 0x01, 0x01, 0x00, 0x01, 0x32,
      0x00, 0x01, 0x02, 0x00, 0x01, 0x00, 0x01, 0x2C, 0x01, 0x01, 0x00] = .ok (.cmd54 header options) := by
  rfl

theorem test_decode_cmd55 :
    decodeCommand [0x55, 0x00, 0x01, 0x01, 0x00, 0xA1, 0xB2, 0xC3, 0xBA, 0x11, 0xAD, 0x01, 0x02, 0x03, 0x04, 0x05,
      0x06, 0x07, 0x08, 0x09, 0x0A, 0x0B, 0x0C, 0x0D, 0x0E] = .ok (.cmd55 peer ⟨[0x01, 0x02, 0x03, 0x04, 0x05, 0x06,
      0x07, 0x08, 0x09, 0x0A, 0x0B, 0x0C, 0x0D, 0x0E], rfl⟩) := by
  rfl

theorem test_decode_cmd56 :
    decodeCommand [0x56, 0x00, 0x01, 0x01, 0x00, 0xBA, 0x11, 0xAD, 0xA1, 0xB2, 0xC3, 0x01, 0x01, 0x00, 0x01, 0x32,
      0x00, 0x01, 0x02, 0x00, 0x01, 0x00, 0x01, 0x2C, 0x01, 0x01, 0x00] = .ok (.cmd56 header options) := by
  rfl

theorem test_decode_cmd57 :
    decodeCommand [0x57, 0x00, 0x01, 0x01, 0x00, 0xA1, 0xB2, 0xC3, 0xBA, 0x11, 0xAD, 0x01, 0x02, 0x03, 0x04, 0x05,
      0x06, 0x07, 0x08, 0x09, 0x0A, 0x0B, 0x0C, 0x0D, 0x0E, 0x0F, 0x10] = .ok (.cmd57 peer ⟨[0x01, 0x02, 0x03, 0x04,
      0x05, 0x06, 0x07, 0x08, 0x09, 0x0A, 0x0B, 0x0C, 0x0D, 0x0E, 0x0F, 0x10], rfl⟩) := by
  rfl

theorem test_decode_cmdFE :
    decodeCommand [0xFE, 0x00, 0x01, 0x01, 0x00, 0xA1, 0xB2, 0xC3, 0xBA, 0x11, 0xAD, 0x76, 0x01, 0x00, 0x00] = .ok
      (.cmdFE peer 0x76 [0x00]) := by
  rfl

theorem test_pseudo_operations_have_the_words_of_their_expansion :
    decodeOperation (encode (.unwrap2w testKeyB testChallenge [0x38])) = .ok (.wrap2w testKeyB testChallenge [0x38]) ∧
      decodeOperation (encode (.unwrap1w testAddress testKeyA)) = .ok (.wrap1w testAddress testKeyA) ∧
      decodeOperation (encode (.crcCheck [0xAB, 0xCD])) = .ok (.crc16 [0xAB, 0xCD]) ∧
      decodeOperation (encode (.cks [0x38])) = .error .empty := by
  refine ⟨?_, ?_, ?_, ?_⟩ <;> rfl

theorem test_bad_requests_are_rejected_by_name :
    decodeOperation [0x7E, 0x00] = .error (.unknownOp 0x7E) ∧ decodeOperation [] = .error .empty ∧
      decodeOperation [0x01, 0x31, 0x00] = .error (.malformed 0x01) ∧
      decodeOperation [0x01, 0x31, 0x00, 0x62, 0x01] = .error (.malformed 0x01) ∧
      decodeCommand [0x01] = .error (.uncatalogued 0x01) := by
  refine ⟨?_, ?_, ?_, ?_, ?_⟩ <;> rfl

theorem test_table_words :
    decodeTableWord 8 0x01 = some (.cksStep 0x00 0x00 0x00) ∧
      decodeTableWord 8 0x2D = some (.cmd2D ⟨0, 0, 0, 0x00, Bytes.zero 3, Bytes.zero 3⟩) ∧
      (decodeTableWord 8 0x30).map Instr.format = some .op8 ∧ decodeTableWord 8 0x7E = none := by
  refine ⟨?_, ?_, ?_, ?_⟩ <;> rfl

theorem test_fetch_word_runs_next :
    ((after (step (State.reset.withFetchWord 8 0x5F))).bind State.result) = some .pass := by
  decide +kernel

/-! ### The operations -/

/-- 40_checksum_iv.md R103. -/
theorem test_cksStep :
    [cksStep 0x00 0x00 0x00, cksStep 0xFF 0x00 0x00, cksStep 0x80 0x00 0x00, cksStep 0x00 0x80 0x00,
        cksStep 0x80 0x80 0x00, cksStep 0x00 0x7F 0xFF, cksStep 0xFF 0xFF 0xFF, cksStep 0x12 0x34 0x56,
        cksStep 0xAA 0xC0 0x55] =
      [(0x00, 0x00), (0x01, 0xFE), (0x01, 0x00), (0x55, 0x5B), (0x54, 0x5B), (0xFF, 0xFE), (0xAB, 0x5B), (0x68, 0x88),
        (0xD4, 0xA5)] := by
  decide

/-- 95_test_vectors.md Part 2. -/
theorem test_cks :
    answer (.cks [0x38, 0x12, 0x34, 0x56, 0x78, 0x9A, 0xBC]) = some (.checksum 0x1B 0xB0) ∧
      answer (.cks (0x32 :: testWrappedB)) = some (.checksum 0x40 0x32) := by
  decide +kernel

/-- 40_checksum_iv.md R107, rows 2 and 5. -/
theorem test_iv2w :
    answer (.iv2w [0x38, 0x12, 0x34, 0x56, 0x78, 0x9A, 0xBC] testChallenge) = some (.block
        ⟨[0x38, 0x12, 0x34, 0x56, 0x78, 0x9A, 0xBC, 0x55, 0x1B, 0xB0, 0x12, 0x34, 0x56, 0x78, 0x9A, 0xBC], rfl⟩) ∧
      answer (.iv2w [] testChallenge) = some (.block
        ⟨[0x55, 0x55, 0x55, 0x55, 0x55, 0x55, 0x55, 0x55, 0x00, 0x00, 0x12, 0x34, 0x56, 0x78, 0x9A, 0xBC], rfl⟩) := by
  decide +kernel

/-- 40_checksum_iv.md R108. -/
theorem test_iv1w :
    answer (.iv1w (0x30 :: (wrap1w testAddress testKeyA).data) testSequence) = some (.block
      ⟨[0x30, 0x7E, 0x60, 0x49, 0x1F, 0x97, 0x6A, 0xDF, 0xC9, 0x87, 0x12, 0x34, 0x55, 0x55, 0x55, 0x55], rfl⟩) := by
  decide +kernel

/-- 41_aes.md R133, rows 1 and 2. -/
theorem test_aesEnc :
    answer (.aesEnc
        ⟨[0x2B, 0x7E, 0x15, 0x16, 0x28, 0xAE, 0xD2, 0xA6, 0xAB, 0xF7, 0x15, 0x88, 0x09, 0xCF, 0x4F, 0x3C], rfl⟩
        ⟨[0x32, 0x43, 0xF6, 0xA8, 0x88, 0x5A, 0x30, 0x8D, 0x31, 0x31, 0x98, 0xA2, 0xE0, 0x37, 0x07, 0x34], rfl⟩) =
      some (.block
        ⟨[0x39, 0x25, 0x84, 0x1D, 0x02, 0xDC, 0x09, 0xFB, 0xDC, 0x11, 0x85, 0x97, 0x19, 0x6A, 0x0B, 0x32], rfl⟩) ∧
      answer (.aesEnc
        ⟨[0x00, 0x01, 0x02, 0x03, 0x04, 0x05, 0x06, 0x07, 0x08, 0x09, 0x0A, 0x0B, 0x0C, 0x0D, 0x0E, 0x0F], rfl⟩
        ⟨[0x00, 0x11, 0x22, 0x33, 0x44, 0x55, 0x66, 0x77, 0x88, 0x99, 0xAA, 0xBB, 0xCC, 0xDD, 0xEE, 0xFF], rfl⟩) =
      some (.block
        ⟨[0x69, 0xC4, 0xE0, 0xD8, 0x6A, 0x7B, 0x04, 0x30, 0xD8, 0xCD, 0xB7, 0x80, 0x70, 0xB4, 0xC5, 0x5A], rfl⟩) := by
  decide +kernel

/-- 42_keywrap.md R140, R143. -/
theorem test_wrap2w :
    answer (.wrap2w testKeyA testChallenge [0x31]) = some (.block
        ⟨[0x10, 0x2E, 0x49, 0xA1, 0x6D, 0x3B, 0x69, 0x72, 0x6F, 0x31, 0x92, 0xCF, 0x17, 0x53, 0x4A, 0xD9], rfl⟩) ∧
      answer (.wrap2w testKeyB testChallenge [0x38, 0x12, 0x34, 0x56, 0x78, 0x9A, 0xBC]) =
        some (.block ⟨testWrappedB, rfl⟩) := by
  decide +kernel

/-- 95_test_vectors.md V2, last row. -/
theorem test_unwrap2w :
    answer (.unwrap2w ⟨testWrappedB, rfl⟩ testChallenge [0x38, 0x12, 0x34, 0x56, 0x78, 0x9A, 0xBC]) =
      some (.block testKeyB) := by
  decide +kernel

/-- 42_keywrap.md R145; the key storage holds the result. -/
theorem test_wrap1w :
    (after (exec (.wrap1w testAddress testKeyA) idle)).map (fun s => (s.result, s.callerKey.data)) =
      some (some (.block
        ⟨[0x7E, 0x60, 0x49, 0x1F, 0x97, 0x6A, 0xDF, 0x65, 0x3D, 0xB0, 0xED, 0x78, 0x5E, 0x49, 0xA2, 0x01], rfl⟩),
        [0x7E, 0x60, 0x49, 0x1F, 0x97, 0x6A, 0xDF, 0x65, 0x3D, 0xB0, 0xED, 0x78, 0x5E, 0x49, 0xA2, 0x01]) := by
  decide +kernel

/-- 42_keywrap.md R147 on R145's example. -/
theorem test_unwrap1w :
    (after (exec (.unwrap1w testAddress
        ⟨[0x7E, 0x60, 0x49, 0x1F, 0x97, 0x6A, 0xDF, 0x65, 0x3D, 0xB0, 0xED, 0x78, 0x5E, 0x49, 0xA2, 0x01], rfl⟩)
        idle)).map State.callerKey = some testKeyA := by
  decide +kernel

/-- 43_mac.md R150, R152 row 1. -/
theorem test_mac2w :
    answer (.mac2w testChallenge testKeyB (0x32 :: testWrappedB)) =
        some (.mac ⟨[0x0A, 0xE5, 0x19, 0xA7, 0x3C, 0x99], rfl⟩) ∧
      answer (.mac2w testChallenge testKeyA [0x2E]) = some (.mac macBytes) := by
  decide +kernel

/-- 43_mac.md R155. -/
theorem test_mac1w :
    answer (.mac1w testSequence testKeyA [0x30]) = some (.mac ⟨[0x1A, 0xB1, 0x1A, 0x37, 0xD7, 0x75], rfl⟩) ∧
      answer (.mac1w ⟨[0x00, 0x00], rfl⟩ (Bytes.zero 16) []) =
        some (.mac ⟨[0xA7, 0x7E, 0x03, 0x6C, 0x00, 0xF9], rfl⟩) := by
  decide +kernel

/-- 44_crc_frame.md R160: the check value, and the single bytes. -/
theorem test_crc16 :
    answer (.crc16 [0x31, 0x32, 0x33, 0x34, 0x35, 0x36, 0x37, 0x38, 0x39]) = some (.crc 0x2189) ∧
      answer (.crc16 [0x01]) = some (.crc 0x1189) ∧ answer (.crc16 [0x80]) = some (.crc 0x8408) ∧
      answer (.crc16 [0xFF]) = some (.crc 0x0F78) := by
  decide +kernel

/-- 44_crc_frame.md R163, R164. -/
theorem test_crcCheck :
    answer (.crcCheck keyFrame) = some (.check true) ∧ answer (.crcCheck (keyFrame.set 9 0xEB)) = some (.check false) := by
  decide +kernel

/-- 44_crc_frame.md R166, row 5. -/
theorem test_frameEnc :
    answer (.frameEnc ⟨1, 1, 1, 0xFF, ⟨[0xFF, 0xFF, 0xFF], rfl⟩, ⟨[0xFF, 0xFF, 0xFF], rfl⟩, 0xFF,
        List.replicate 21 0xFF⟩) = some (.encoded (0xFD :: List.replicate 29 0xFF ++ [0x48, 0x5E])) ∧
      answer (.frameEnc (longFrame 22)) = some (.error (.payloadTooLong 22)) := by
  decide +kernel

/-- 44_crc_frame.md R170, row 1. -/
theorem test_frameDec : answer (.frameDec keyFrame) = some (.decoded testFrame) := by
  decide +kernel

/-- 44_crc_frame.md R170, rows 2, 3, 5, 6, 7, 8. -/
theorem test_frameDec_errors :
    answer (.frameDec (keyFrame.set 9 0xEB)) = some (.error .badCrc) ∧
      answer (.frameDec (keyFrame.take 25 ++ [0x79, 0x63])) = some (.error .badCrc) ∧
      answer (.frameDec (zeroFrame.take 10)) = some (.error (.tooShort 10)) ∧
      answer (.frameDec (List.replicate 11 0x00)) = some (.error (.lengthMismatch 0 11)) ∧
      answer (.frameDec oneWayFrame) = some (.error (.payloadTooLong 26)) ∧
      answer (.frameDec []) = some (.error (.tooShort 0)) := by
  decide +kernel

/-- 95_test_vectors.md P3 at 1000 ms. -/
theorem test_send :
    after (exec (.send entryA.frame optionsA) idle) = some { idle with txQueue := [entryA], result := some .accepted } := by
  decide +kernel

/-- 95_test_vectors.md P3 at 1012 ms; 60_exceptions.md R252: the gate comes before the encoder. -/
theorem test_send_busy :
    after (exec (.send (longFrame 22) optionsB) (inPreamble entryB)) =
      some { inPreamble entryB with result := some (.error .radioBusy) } := by
  decide +kernel

/-- 95_test_vectors.md P4, step 2. -/
theorem test_onReceive : (after (exec (.onReceive 9) idle)).map State.rxCallback = some (some 9) := by
  decide

/-! ### The wire commands: 95_test_vectors.md S1 prints the bytes -/

/-- 44_crc_frame.md R166, row 4. -/
theorem test_cmd00 :
    queued (.cmd00 header plugOnPayload options) =
      some [[0xCE, 0x00, 0xBA, 0x11, 0xAD, 0xA1, 0xB2, 0xC3, 0x00, 0x01, 0xE7, 0x00, 0x00, 0x00, 0x00, 0xFC, 0x5B]] := by
  decide +kernel

/-- 30_encoding.md R90. -/
theorem test_cmd03 :
    (after (exec (.cmd03 header options) idle)).map (fun s => s.txQueue.map TxEntry.frame) =
      some [toPeer 0x03 [0x03, 0x00, 0x00]] := by
  decide +kernel

theorem test_cmd04 : reported (.cmd04 peer [0x09, 0x08]) = some [.received 7 (fromPeer 0x04 [0x09, 0x08])] := by
  decide +kernel

/-- 30_encoding.md R90: broadcast address, no payload, long preamble. -/
theorem test_cmd28 :
    (after (exec (.cmd28 everyone optionsB) idle)).map (fun s => s.txQueue.map fun e =>
        (e.frame.target.data, e.frame.cmd, e.frame.payload, e.opts.shortPreamble)) =
      some [([0x00, 0x00, 0x3B], 0x28, [], false)] := by
  decide +kernel

theorem test_cmd29 :
    reported (.cmd29 peer ⟨[1, 2, 3, 4, 5, 6, 7, 8, 9], rfl⟩) =
      some [.received 7 (fromPeer 0x29 [1, 2, 3, 4, 5, 6, 7, 8, 9])] := by
  decide +kernel

theorem test_cmd2A :
    (after (exec (.cmd2A everyone ⟨[1, 2, 3, 4, 5, 6, 7, 8, 9, 10, 11, 12], rfl⟩ options) idle)).map
        (fun s => s.txQueue.map TxEntry.frame) =
      some [everyoneFrame everyone 0x00 0x2A [1, 2, 3, 4, 5, 6, 7, 8, 9, 10, 11, 12]] := by
  decide +kernel

theorem test_cmd2C :
    queued (.cmd2C header options) = some [[0xC8, 0x00, 0xBA, 0x11, 0xAD, 0xA1, 0xB2, 0xC3, 0x2C, 0x85, 0xBE]] := by
  decide +kernel

theorem test_cmd2D : reported (.cmd2D peer) = some [.received 7 (fromPeer 0x2D [])] := by
  decide +kernel

theorem test_cmd2E :
    queued (.cmd2E header options) = some [[0xC9, 0x00, 0xBA, 0x11, 0xAD, 0xA1, 0xB2, 0xC3, 0x2E, 0x02, 0x9E, 0xEF]] := by
  decide +kernel

theorem test_cmd2F : reported (.cmd2F peer 0x02) = some [.received 7 (fromPeer 0x2F [0x02])] := by
  decide +kernel

/-- 44_crc_frame.md R165: sixteen bytes and six do not fit a frame of this link; sixteen and two do. -/
theorem test_cmd30 :
    answer (.cmd30 header wrappedKey (List.replicate 6 0x00) (.send options)) = some (.error (.payloadTooLong 22)) ∧
      answer (.cmd30 header wrappedKey [0x02, 0x01] (.send options)) = some .accepted := by
  decide +kernel

theorem test_cmd31 :
    queued (.cmd31 header options) = some [[0xC8, 0x00, 0xBA, 0x11, 0xAD, 0xA1, 0xB2, 0xC3, 0x31, 0xE1, 0x75]] := by
  decide +kernel

theorem test_cmd32 :
    queued (.cmd32 header wrappedKey options) = some [[0xD8, 0x00, 0xBA, 0x11, 0xAD, 0xA1, 0xB2, 0xC3, 0x32] ++
      wrappedKey.data ++ [0xDC, 0x43]] := by
  decide +kernel

theorem test_cmd33 : reported (.cmd33 peer) = some [.received 7 (fromPeer 0x33 [])] := by
  decide +kernel

/-- 30_encoding.md R90: no payload; `Prio` is set, wherever it lies. -/
theorem test_cmd36 :
    (after (exec (.cmd36 header options) idle)).map (fun s => s.txQueue.map fun e => (e.frame.cmd, e.frame.payload)) =
      some [(0x36, [])] ∧ ∀ p : Fin 8, (0x00#8 ||| flag p).getLsbD p.val = true := by
  decide +kernel

theorem test_cmd37 :
    reported (.cmd37 peer ⟨[0x07, 0x08, 0x09], rfl⟩) = some [.received 7 (fromPeer 0x37 [0x07, 0x08, 0x09])] := by
  decide +kernel

theorem test_cmd38 :
    reported (.cmd38 peer testChallenge .receive) = some [.received 7 (fromPeer 0x38 testChallenge.data)] := by
  decide +kernel

theorem test_cmd3C :
    reported (.cmd3C peer testChallenge .receive) = some [.received 7 (fromPeer 0x3C testChallenge.data)] := by
  decide +kernel

theorem test_cmd3D :
    queued (.cmd3D header macBytes (.send options)) =
      some [[0xCE, 0x00, 0xBA, 0x11, 0xAD, 0xA1, 0xB2, 0xC3, 0x3D] ++ macBytes.data ++ [0x8D, 0x9B]] := by
  decide +kernel

theorem test_cmd50 :
    queued (.cmd50 header options) = some [[0xC8, 0x00, 0xBA, 0x11, 0xAD, 0xA1, 0xB2, 0xC3, 0x50, 0x6E, 0x07]] := by
  decide +kernel

theorem test_cmd51 : reported (.cmd51 peer plugName) = some [.received 7 (fromPeer 0x51 plugName.data)] := by
  decide +kernel

theorem test_cmd54 :
    queued (.cmd54 header options) = some [[0xC8, 0x00, 0xBA, 0x11, 0xAD, 0xA1, 0xB2, 0xC3, 0x54, 0x4A, 0x41]] := by
  decide +kernel

theorem test_cmd55 :
    reported (.cmd55 peer ⟨[1, 2, 3, 4, 5, 6, 7, 8, 9, 10, 11, 12, 13, 14], rfl⟩) =
      some [.received 7 (fromPeer 0x55 [1, 2, 3, 4, 5, 6, 7, 8, 9, 10, 11, 12, 13, 14])] := by
  decide +kernel

theorem test_cmd56 :
    queued (.cmd56 header options) = some [[0xC8, 0x00, 0xBA, 0x11, 0xAD, 0xA1, 0xB2, 0xC3, 0x56, 0x58, 0x62]] := by
  decide +kernel

theorem test_cmd57 : reported (.cmd57 peer plugName) = some [.received 7 (fromPeer 0x57 plugName.data)] := by
  decide +kernel

theorem test_cmdFE : reported (.cmdFE peer 0x76 []) = some [.received 7 (fromPeer 0xFE [0x76])] := by
  decide +kernel

/-! ### The events: 95_test_vectors.md P3 and P4, a turn each -/

/-- P3 at 1010 ms: only B is due. -/
theorem test_startTx_takes_the_due_entry :
    after (step (turn .startTx twoQueued)) = some { twoQueued with
      txQueue := [entryA], current := some entryB, radioState := .preamble, air := [.preamble 1 true] } := by
  decide +kernel

/-- P3 at 1400 ms: the locked entry at the head holds back the one that is due. -/
theorem test_startTx_is_held_back :
    after (step (turn .startTx { idle with now := 1400, txQueue := [waitingA, entryB] })) =
      some { idle with now := 1400, txQueue := [waitingA, entryB] } := by
  decide +kernel

/-- P3 at 1015 ms. -/
theorem test_preambleDone :
    after (step (turn .preambleDone (inPreamble entryB))) = some { inPreamble entryB with
      radioState := .tx,
      air := [.frame 1 [0xC8, 0x00, 0xBA, 0x11, 0xAD, 0xA1, 0xB2, 0xC3, 0x2C, 0x85, 0xBE]] } := by
  decide +kernel

/-- P3 at 1345 ms: A is locked and owes one repeat. -/
theorem test_txDone_repeats :
    after (step (turn .txDone (onAir entryA))) = some { idle with now := 1345, txQueue := [waitingA] } := by
  decide +kernel

/-- P3 at 1030 ms. -/
theorem test_txDone_reports :
    after (step (turn .txDone (onAir entryB))) =
      some { idle with now := 1345, notifications := [.txComplete entryB.frame .transmitted] } := by
  decide +kernel

/-- P3 at 1115 ms. -/
theorem test_txFail :
    after (step (turn .txFail (inPreamble entryA))) =
      some { idle with notifications := [.txComplete entryA.frame .failed] } := by
  decide +kernel

/-- P4, step 3. -/
theorem test_rxFrame_calls_back :
    after (step (turn (.rxFrame keyFrame) idle)) =
      some { idle with running := some (7, testFrame), notifications := [.received 7 testFrame] } := by
  decide +kernel

/-- P4, steps 1 and 5; P3 at 1020 ms. -/
theorem test_rxFrame_is_dropped :
    after (step (turn (.rxFrame keyFrame) { idle with rxCallback := none })) = some { idle with rxCallback := none } ∧
      after (step (turn (.rxFrame (keyFrame.set 9 0xEB)) idle)) = some idle ∧
      after (step (turn (.rxFrame keyFrame) (onAir entryA))) = some (onAir entryA) := by
  decide +kernel

/-- 60_exceptions.md R259: the reception waits until the callback has returned. -/
theorem test_callback_returns_first :
    after (step inCallback) = some { idle with inputs := [.rxFrame zeroFrame, .startTx] } := by
  decide +kernel

/-- 70_reset_and_hazards.md R292 (b), 93 U7: a breach in `TX` leaves nothing known of the bytes that are going out. -/
theorem test_freed_on_air :
    after (step (turn (.frameFreed 0) sending)) =
      some { sending with
        current := some (breached .freed), air := [.frame 1 (Config.strayBytes 0)], freeIndex := 1 } :=
  rfl

/-- P4, step 8. -/
theorem test_unknown_code :
    after (step (turn (.operation [0x7E]) idle)) = some { idle with result := some (.error (.unknownOp 0x7E)) } := by
  decide +kernel

/-- 70_reset_and_hazards.md R282: no report. -/
theorem test_reset_discards :
    after (step (turn .reset (onAir entryA))) = some { State.reset with now := 1345 } := by
  decide +kernel

/-- 60_exceptions.md R251. -/
theorem test_error_codes :
    [OpResult.accepted.code, OpError.badCrc.code, (OpError.tooShort 0).code, (OpError.payloadTooLong 22).code,
      (OpError.lengthMismatch 0 11).code, OpError.radioBusy.code, (OpError.unknownOp 0x7E).code,
      (OpError.selfTestFail 1).code] = [0, 1, 2, 3, 4, 5, 6, 7] := by
  decide

/-! ### The hypotheses of the statements can be met: a witness for each statement that has any, and for each clause -/

theorem check_answers {x : List Byte} {good : Bool} (s : State) (h : crcCheck x = good) :
    exec (.crcCheck x) s = .next { s with result := some (.check good) } := by
  simp [exec, execCrcCheck, h, State.finish]

theorem encode_answers {f : Frame} {bytes : List Byte} (s : State) (h : frameEnc f = .ok bytes) :
    exec (.frameEnc f) s = .next { s with result := some (.encoded bytes) } := by
  simp [exec, execFrameEnc, encodeFrame, h, State.finish]

theorem decode_answers {x : List Byte} {f : Frame} (s : State) (h : frameDec x = .ok f) :
    exec (.frameDec x) s = .next { s with result := some (.decoded f) } := by
  simp [exec, execFrameDec, decodeFrame, h, State.finish]

theorem decode_refuses {x : List Byte} {e : OpError} (s : State) (h : frameDec x = .error e) :
    exec (.frameDec x) s = .next { s with result := some (.error e) } := by
  simp [exec, execFrameDec, decodeFrame, h, State.raise]

theorem entryB_sound : entryB.Sound := by
  refine ⟨by decide +kernel, fun _ => rfl, fun h => ?_⟩
  cases h

theorem inPreamble_inv (l : List Turn) : ({ inPreamble entryB with inputs := l } : State).Inv := by
  refine ⟨by simp [inPreamble], ?_, ?_, by simp [inPreamble, idle, State.reset]⟩
  · simp [State.owned, inPreamble, idle, State.reset, Config.txqDepth]
  · intro e he
    obtain rfl : e = entryB := by simpa [State.owned, inPreamble, idle, State.reset] using he
    exact entryB_sound

theorem witness_OperationDecodesAsEncoded : (Instr.mac2w testChallenge testKeyB [0x32]).format = .op8 := rfl

theorem witness_CommandDecodesAsEncoded : (Instr.cmd3D header macBytes (.send options)).format = .wireCmd := rfl

theorem witness_FrameCodecRoundTrip : (longFrame 21).payload.length ≤ 21 ∧ (longFrame 0).payload.length ≤ 21 := by
  decide

theorem witness_StepRunsTheDecodedInstruction :
    (nextTurn (turn (.operation [0x5F]) idle) = some (.operation [0x5F], []) ∧
        decodeOperation [0x5F] = .ok .selftest) ∧
      nextTurn (turn (.command (encode (.cmd2D peer))) idle) = some (.command (encode (.cmd2D peer)), []) ∧
        decodeCommand (encode (.cmd2D peer)) = .ok (.cmd2D peer) := by
  refine ⟨⟨?_, ?_⟩, ?_, ?_⟩ <;> rfl

theorem witness_UnknownCodeAnswersUnknownOp :
    nextTurn (turn (.operation [0x7E, 0x01]) idle) = some (.operation (0x7E :: [0x01]), []) ∧
      (0x7E : Byte) ∉ operationCodes ∧ (0x00 : Byte) ∉ operationCodes ∧ (0xFF : Byte) ∉ operationCodes := by
  refine ⟨rfl, ?_, ?_, ?_⟩ <;> decide

theorem witness_StepStopsOnlyOnMalformedRequests :
    step (turn (.operation [0x01]) idle) = .refused .malformedRequest ∧
      step (turn (.command [0x01]) idle) = .refused .malformedRequest ∧ idle.Completes :=
  ⟨rfl, rfl, idle, rfl⟩

theorem witness_QuietTurns :
    nextTurn idle = none ∧ nextTurn (turn (.clock 5) idle) = some (.clock 5, []) ∧
      nextTurn inCallback = some (.callbackReturns, [.rxFrame zeroFrame, .startTx]) :=
  ⟨rfl, rfl, rfl⟩

theorem witness_MacSeesTheTailThroughTheChecksum :
    ([1, 2, 3, 4, 5, 6, 7, 8, 0, 0, 2] : List Byte) ≠ [1, 2, 3, 4, 5, 6, 7, 8, 0, 1, 0] ∧
      ([1, 2, 3, 4, 5, 6, 7, 8, 0, 0, 2] : List Byte).take 8 = ([1, 2, 3, 4, 5, 6, 7, 8, 0, 1, 0] : List Byte).take 8 ∧
      exec (.cks [1, 2, 3, 4, 5, 6, 7, 8, 0, 0, 2]) idle = exec (.cks [1, 2, 3, 4, 5, 6, 7, 8, 0, 1, 0]) idle := by
  have h : cks [1, 2, 3, 4, 5, 6, 7, 8, 0, 0, 2] = cks [1, 2, 3, 4, 5, 6, 7, 8, 0, 1, 0] := by decide
  refine ⟨by decide, by decide, ?_⟩
  simp only [exec, execCks, h]

theorem witness_PureOperationsDependOnNothing :
    isPure (.crcCheck [0x00]) = true ∧ isPure (.frameDec []) = true ∧ isPure (.cks []) = true := by
  decide

theorem witness_CrcCheckHasTwoForms : 2 ≤ ([0x00, 0x00] : List Byte).length ∧ 2 ≤ keyFrame.length := by
  decide

theorem witness_CrcSeesOneChangedByte : (0xEA : Byte) ≠ 0xEB := by
  decide

theorem witness_FrameEncLaysOutTheFrame :
    (longFrame 0).payload.length ≤ 21 ∧ (longFrame 21).payload.length ≤ 21 ∧ 21 < (longFrame 22).payload.length := by
  decide

/-- The first five clauses, at lengths 10, 11, 33 (a good CRC and 22 payload bytes), 11 and 32. -/
theorem witness_FrameDecChecksInOrder :
    (zeroFrame.take 10).length < 11 ∧
      (11 ≤ (zeroFrame.set 0 0x09).length ∧
        exec (.crcCheck (zeroFrame.set 0 0x09)) idle = .next { idle with result := some (.check false) }) ∧
      (11 ≤ (0x1E :: List.replicate 30 0x00 ++ [0xD0, 0xA4] : List Byte).length ∧
        exec (.crcCheck (0x1E :: List.replicate 30 0x00 ++ [0xD0, 0xA4])) idle =
          .next { idle with result := some (.check true) } ∧
        21 < (0x1E :: List.replicate 30 0x00 ++ [0xD0, 0xA4] : List Byte).length - 11) ∧
      (11 ≤ (List.replicate 11 0x00 : List Byte).length ∧
        exec (.crcCheck (List.replicate 11 0x00)) idle = .next { idle with result := some (.check true) } ∧
        (List.replicate 11 0x00 : List Byte).length - 11 ≤ 21 ∧
        (((List.replicate 11 0x00 : List Byte).getD 0 0) &&& 0x1F).toNat ≠ (List.replicate 11 0x00 : List Byte).length - 3) ∧
      11 ≤ (0x1D :: List.replicate 29 0x00 ++ [0xA4, 0xB3] : List Byte).length ∧
        exec (.crcCheck (0x1D :: List.replicate 29 0x00 ++ [0xA4, 0xB3])) idle =
          .next { idle with result := some (.check true) } ∧
        (0x1D :: List.replicate 29 0x00 ++ [0xA4, 0xB3] : List Byte).length - 11 ≤ 21 ∧
        (((0x1D :: List.replicate 29 0x00 ++ [0xA4, 0xB3] : List Byte).getD 0 0) &&& 0x1F).toNat =
          (0x1D :: List.replicate 29 0x00 ++ [0xA4, 0xB3] : List Byte).length - 3 := by
  refine ⟨by decide, ⟨by decide, check_answers _ (by decide +kernel)⟩,
    ⟨by decide, check_answers _ (by decide +kernel), by decide⟩,
    ⟨by decide, check_answers _ (by decide +kernel), by decide, by decide⟩,
    by decide, check_answers _ (by decide +kernel), by decide, by decide⟩

/-- The last clause. -/
theorem witness_FrameDecChecksInOrder_received :
    exec (.frameDec []) (turn (.rxFrame []) idle) =
        .next { turn (.rxFrame []) idle with result := some (.error (.tooShort 0)) } ∧
      nextTurn (turn (.rxFrame []) idle) = some (.rxFrame [], []) :=
  ⟨decode_refuses _ rfl, rfl⟩

theorem witness_SendPassesItsGates :
    ((onAir entryA).radioState = .tx ∧ (inPreamble entryA).radioState = .preamble) ∧
      (full.radioState = .rx ∧ full.txQueue.length = Config.txqDepth) ∧
      (idle.radioState = .rx ∧ idle.txQueue.length ≠ Config.txqDepth ∧ 21 < (longFrame 22).payload.length) ∧
      idle.radioState = .rx ∧ idle.txQueue.length ≠ Config.txqDepth ∧ (longFrame 21).payload.length ≤ 21 := by
  refine ⟨⟨rfl, rfl⟩, ⟨rfl, by simp [full]⟩, ⟨rfl, ?_, by decide⟩, rfl, ?_, by decide⟩ <;>
    exact (Nat.succ_ne_zero _).symm

theorem witness_SentCommandsQueueTheirFrame :
    sentFrame (.cmd2C header options) = some (toPeer 0x2C [], options) ∧ idle.radioState = .rx ∧
      idle.txQueue.length ≠ Config.txqDepth ∧ (toPeer 0x2C []).payload.length ≤ 21 :=
  ⟨rfl, rfl, (Nat.succ_ne_zero _).symm, by decide⟩

theorem witness_ArrivingCommandsReachTheCallback :
    arrivingFrame (.cmd2D peer) = some (fromPeer 0x2D []) ∧ State.reset.rxCallback = none ∧
      (onAir entryA).radioState ≠ .rx ∧ inCallback.running.isSome = true ∧
      (arrivingFrame (.cmd04 peer (List.replicate 22 0x00)) = some (fromPeer 0x04 (List.replicate 22 0x00)) ∧
        21 < (fromPeer 0x04 (List.replicate 22 0x00)).payload.length) ∧
      idle.rxCallback = some 7 ∧ idle.radioState = .rx ∧ idle.running = none ∧ (fromPeer 0x2D []).payload.length ≤ 21 := by
  refine ⟨rfl, rfl, by decide, rfl, ⟨rfl, by decide⟩, rfl, rfl, rfl, by decide⟩

theorem witness_EveryCommandIsSentOrArrives :
    (Instr.cmd2C header options).format = .wireCmd ∧ (Instr.cmd31 header options).format = .wireCmd ∧
      arrivingFrame (.cmd2D peer) = some (fromPeer 0x2D []) ∧
      ∃ bytes, exec (.frameEnc (fromPeer 0x2D [])) idle = .next { idle with result := some (.encoded bytes) } :=
  ⟨rfl, rfl, rfl, _, encode_answers _ (frameEnc_of_le (by decide))⟩

theorem witness_OperationsChangeOnlyWhatIsTheirs :
    (∀ a k, Instr.selftest ≠ .wrap1w a k ∧ Instr.selftest ≠ .unwrap1w a k) ∧ (∀ cb, Instr.selftest ≠ .onReceive cb) ∧
      (∀ f o, Instr.selftest ≠ .send f o ∧ sentFrame .selftest ≠ some (f, o)) ∧ arrivingFrame .selftest = none ∧
      (arrivingFrame (.cmd2D peer)).isSome = true := by
  simp [sentFrame, arrivingFrame]

theorem witness_StartTxTakesTheOldestDue :
    nextTurn (turn .startTx twoQueued) = some (.startTx, []) ∧ (turn .startTx twoQueued).radioState = .rx ∧
      (turn .startTx twoQueued).txQueue = [entryA] ++ entryB :: [] ∧ entryB.dueAt ≤ (turn .startTx twoQueued).now ∧
      (∀ d ∈ [entryA], (turn .startTx twoQueued).now < d.dueAt) ∧
      ∀ d ∈ [entryA].head?, d.opts.lock = false ∨ d.firstDone = false := by
  refine ⟨rfl, rfl, rfl, by decide, by simp [turn, twoQueued, entryA], by simp [entryA]⟩

theorem witness_StartTxIsHeldBack :
    (nextTurn (turn .startTx (onAir entryA)) = some (.startTx, []) ∧ (turn .startTx (onAir entryA)).radioState ≠ .rx) ∧
      (nextTurn (turn .startTx idle) = some (.startTx, []) ∧
        ∀ e ∈ (turn .startTx idle).txQueue, (turn .startTx idle).now < e.dueAt) ∧
      nextTurn (turn .startTx { idle with txQueue := [waitingA, entryB] }) = some (.startTx, []) ∧
        ∃ e tail, (turn .startTx { idle with txQueue := [waitingA, entryB] }).txQueue = e :: tail ∧ e.opts.lock = true ∧
          e.firstDone = true ∧ (turn .startTx { idle with txQueue := [waitingA, entryB] }).now < e.dueAt :=
  ⟨⟨rfl, by decide⟩, ⟨rfl, by simp [turn, idle, State.reset]⟩, rfl, waitingA, [entryB], rfl, rfl, rfl, by decide⟩

theorem witness_PreambleDoneSendsTheBytes :
    nextTurn (turn .preambleDone (inPreamble entryB)) = some (.preambleDone, []) ∧
      (turn .preambleDone (inPreamble entryB)).radioState = .preamble ∧
      (turn .preambleDone (inPreamble entryB)).current = some entryB ∧ entryB.storage = .intact :=
  ⟨rfl, rfl, rfl, rfl⟩

/-- Both clauses: A is locked and owes a repeat, B owes none. -/
theorem witness_TxDoneRepeatsOrReports :
    (nextTurn (turn .txDone (onAir entryA)) = some (.txDone, []) ∧ (turn .txDone (onAir entryA)).radioState = .tx ∧
        (turn .txDone (onAir entryA)).current = some entryA ∧ 0 < entryA.repeatsLeft ∧
        goesOn entryA (turn .txDone (onAir entryA)).txQueue) ∧
      nextTurn (turn .txDone (onAir entryB)) = some (.txDone, []) ∧ (turn .txDone (onAir entryB)).radioState = .tx ∧
        (turn .txDone (onAir entryB)).current = some entryB ∧ entryB.repeatsLeft = 0 ∧ entryB.storage = .intact :=
  ⟨⟨rfl, rfl, rfl, by decide, .inl rfl⟩, rfl, rfl, rfl, rfl, rfl⟩

theorem witness_TxFailReportsFailure :
    (nextTurn (turn .txFail (inPreamble entryA)) = some (.txFail, []) ∧
        (turn .txFail (inPreamble entryA)).radioState = .preamble ∧
        (turn .txFail (inPreamble entryA)).current = some entryA) ∧
      nextTurn (turn .txFail (onAir entryA)) = some (.txFail, []) ∧ (turn .txFail (onAir entryA)).radioState = .tx ∧
        (turn .txFail (onAir entryA)).current = some entryA ∧ entryA.storage = .intact :=
  ⟨⟨rfl, rfl, rfl⟩, rfl, rfl, rfl, rfl⟩

theorem witness_RxFrameCallsBackOrDrops :
    (nextTurn (turn (.rxFrame keyFrame) (onAir entryA)) = some (.rxFrame keyFrame, []) ∧
        (turn (.rxFrame keyFrame) (onAir entryA)).radioState ≠ .rx) ∧
      (nextTurn (turn (.rxFrame keyFrame) State.reset) = some (.rxFrame keyFrame, []) ∧
        (turn (.rxFrame keyFrame) State.reset).rxCallback = none) ∧
      (nextTurn (turn (.rxFrame []) idle) = some (.rxFrame [], []) ∧
        exec (.frameDec []) (turn (.rxFrame []) idle) =
          .next { turn (.rxFrame []) idle with result := some (.error (.tooShort 0)) }) ∧
      nextTurn (turn (.rxFrame keyFrame) idle) = some (.rxFrame keyFrame, []) ∧
        (turn (.rxFrame keyFrame) idle).radioState = .rx ∧ (turn (.rxFrame keyFrame) idle).rxCallback = some 7 ∧
        exec (.frameDec keyFrame) (turn (.rxFrame keyFrame) idle) =
          .next { turn (.rxFrame keyFrame) idle with result := some (.decoded testFrame) } :=
  ⟨⟨rfl, by decide⟩, ⟨rfl, rfl⟩, ⟨rfl, decode_refuses _ rfl⟩, rfl, rfl, rfl, decode_answers _ (by decide +kernel)⟩

/-- Each clause: the callback runs, with a turn of the host among the events, and with events alone; it does not run, with turns
and without. -/
theorem witness_ArbiterEventsWaitForTheCallback :
    (inCallback.running.isSome = true ∧
        nextTurn inCallback = some (.callbackReturns, [.rxFrame zeroFrame, .startTx])) ∧
      (({ inCallback with inputs := [.startTx, .command (encode (.cmd2D peer))] } : State).running.isSome = true ∧
        nextTurn { inCallback with inputs := [.startTx, .command (encode (.cmd2D peer))] } = none) ∧
      ((turn .startTx idle).running = none ∧ (turn .startTx idle).inputs = .startTx :: []) ∧
      idle.running = none ∧ idle.inputs = [] :=
  ⟨⟨rfl, rfl⟩, ⟨rfl, rfl⟩, ⟨rfl, rfl⟩, rfl, rfl⟩

theorem witness_ResetDiscardsWithoutReport : nextTurn (turn .reset (onAir entryA)) = some (.reset, []) := rfl

theorem witness_ChangedFrameSendsOldOrNewBytes :
    nextTurn (turn .preambleDone (inPreamble { entryB with storage := .changed (toPeer 0x31 []) })) =
        some (.preambleDone, []) ∧
      (turn .preambleDone (inPreamble { entryB with storage := .changed (toPeer 0x31 []) })).radioState = .preamble ∧
      (turn .preambleDone (inPreamble { entryB with storage := .changed (toPeer 0x31 []) })).current =
        some { entryB with storage := .changed (toPeer 0x31 []) } ∧
      exec (.frameEnc (toPeer 0x31 []))
          (turn .preambleDone (inPreamble { entryB with storage := .changed (toPeer 0x31 []) })) =
        .next { turn .preambleDone (inPreamble { entryB with storage := .changed (toPeer 0x31 []) }) with
          result := some (.encoded [0xC8, 0x00, 0xBA, 0x11, 0xAD, 0xA1, 0xB2, 0xC3, 0x31, 0xE1, 0x75]) } :=
  ⟨rfl, rfl, rfl, encode_answers _ (by decide +kernel)⟩

theorem witness_StepKeepsInv :
    (turn .txFail (inPreamble entryB)).Inv ∧ (turn .txFail (inPreamble entryB)).Completes :=
  ⟨inPreamble_inv [.txFail], _, rfl⟩

theorem witness_StepKeepsStorageIntact :
    nextTurn (turn .txDone (onAir entryA)) = some (.txDone, []) ∧ Turn.txDone.keepsOwnership = true ∧
      (turn .txDone (onAir entryA)).storageIntact ∧ (turn .txDone (onAir entryA)).Completes := by
  refine ⟨rfl, rfl, ?_, _, rfl⟩
  intro e he
  obtain rfl : e = entryA := by simpa [State.owned, turn, onAir, idle, State.reset] using he
  rfl

theorem witness_RadioChangesOnlyAsTheTableSays :
    nextTurn (turn .startTx twoQueued) = some (.startTx, []) ∧ (turn .startTx twoQueued).Completes :=
  ⟨rfl, _, rfl⟩

theorem witness_OwnedPlusReportedIsConserved :
    (turn .txFail (inPreamble entryB)).Inv ∧ nextTurn (turn .txFail (inPreamble entryB)) = some (.txFail, []) ∧
      Turn.txFail ≠ .reset ∧ (turn .txFail (inPreamble entryB)).Completes :=
  ⟨inPreamble_inv [.txFail], rfl, by decide, _, rfl⟩

theorem witness_FrameGoesOutOnePlusRepeatTimes :
    let s : State := { idle with now := 1250, txQueue := [entryA], inputs := transmissions 200 2 ++ [.clock 1] }
    s.radioState = .rx ∧ s.current = none ∧ s.running = none ∧ s.txQueue = [entryA] ∧ entryA.storage = .intact ∧
      entryA.firstDone = false ∧ entryA.repeatsLeft = entryA.opts.repeatCount ∧ entryA.dueAt ≤ s.now ∧
      s.inputs = transmissions entryA.opts.repeatTime (1 + entryA.opts.repeatCount) ++ [.clock 1] :=
  ⟨rfl, rfl, rfl, rfl, rfl, rfl, rfl, by decide, rfl⟩

theorem witness_BusyPeriodEnds :
    (({ inPreamble entryB with inputs := [.preambleDone, .txDone] ++ [] } : State).Inv ∧
        ({ inPreamble entryB with inputs := [.preambleDone, .txDone] ++ [] } : State).radioState ≠ .rx) ∧
      ({ inPreamble entryB with inputs := .txFail :: [] } : State).Inv ∧
        ({ inPreamble entryB with inputs := .txFail :: [] } : State).radioState ≠ .rx :=
  ⟨⟨inPreamble_inv _, by decide⟩, inPreamble_inv _, by decide⟩

theorem witness_ResultsAndKeysAreNeverRead :
    (turn .reset idle).Completes ∧ ({ turn .reset idle with result := some .pass, callerKey := testKeyA } : State).Completes :=
  ⟨⟨_, rfl⟩, _, rfl⟩

/-- Each clause: no such frame, a queued frame with nothing on the air, a queued frame behind one, the frame in `PREAMBLE`, and
the frame in `TX`. -/
theorem witness_BreachMarksOneOwnedFrame :
    (nextTurn (turn (.frameFreed 2) twoQueued) = some (.frameFreed 2, []) ∧ (turn (.frameFreed 2) twoQueued).owned.length ≤ 2) ∧
      (nextTurn (turn (.frameChanged 1 (toPeer 0x31 [])) twoQueued) = some (.frameChanged 1 (toPeer 0x31 []), []) ∧
        (turn (.frameChanged 1 (toPeer 0x31 [])) twoQueued).current = none ∧
        (turn (.frameChanged 1 (toPeer 0x31 [])) twoQueued).txQueue = [entryA] ++ entryB :: [] ∧ 1 = [entryA].length) ∧
      (nextTurn (turn (.frameFreed 1) { onAir entryA with txQueue := [entryB] }) = some (.frameFreed 1, []) ∧
        (turn (.frameFreed 1) { onAir entryA with txQueue := [entryB] }).current = some entryA ∧
        (turn (.frameFreed 1) { onAir entryA with txQueue := [entryB] }).txQueue = [] ++ entryB :: [] ∧
        1 = ([] : List TxEntry).length + 1) ∧
      (nextTurn (turn (.frameFreed 0) (inPreamble entryB)) = some (.frameFreed 0, []) ∧
        (turn (.frameFreed 0) (inPreamble entryB)).current = some entryB ∧
        (turn (.frameFreed 0) (inPreamble entryB)).radioState ≠ .tx) ∧
      nextTurn (turn (.frameFreed 0) sending) = some (.frameFreed 0, []) ∧
        (turn (.frameFreed 0) sending).current = some entryB ∧ (turn (.frameFreed 0) sending).radioState = .tx ∧
        (turn (.frameFreed 0) sending).air = [] ++ [.frame 1 entryB.bytes] :=
  ⟨⟨rfl, by decide⟩, ⟨rfl, rfl, rfl, rfl⟩, ⟨rfl, rfl, rfl, rfl⟩, ⟨rfl, rfl, by decide⟩, rfl, rfl, rfl, rfl⟩

/-- Each clause: the storage freed, and changed to a record of 22 payload bytes; the last transmission's end; a failure. -/
theorem witness_BreachedFrameGoesOnWithFreeValues :
    (nextTurn (turn .preambleDone (inPreamble (breached .freed))) = some (.preambleDone, []) ∧
        (turn .preambleDone (inPreamble (breached .freed))).radioState = .preamble ∧
        (turn .preambleDone (inPreamble (breached .freed))).current = some (breached .freed) ∧
        (breached .freed).storage = .freed ∧
        (breached (.changed (longFrame 22))).storage = .changed (longFrame 22) ∧ 21 < (longFrame 22).payload.length) ∧
      (nextTurn (turn .txDone (onAir (breached .freed))) = some (.txDone, []) ∧
        (turn .txDone (onAir (breached .freed))).radioState = .tx ∧
        (turn .txDone (onAir (breached .freed))).current = some (breached .freed) ∧
        (breached .freed).storage ≠ .intact ∧ (breached .freed).repeatsLeft = 0) ∧
      nextTurn (turn .txFail (onAir (breached .freed))) = some (.txFail, []) ∧
        (turn .txFail (onAir (breached .freed))).radioState = .tx ∧
        (turn .txFail (onAir (breached .freed))).current = some (breached .freed) :=
  ⟨⟨rfl, rfl, rfl, rfl, rfl, by decide⟩, ⟨rfl, rfl, rfl, by decide, rfl⟩, rfl, rfl, rfl⟩

theorem witness_AirLogEndsWithTheFrameOnAir :
    (turn (.frameFreed 0) sending).AirAgrees ∧ (turn (.frameFreed 0) sending).radioState = .tx ∧
      (turn (.frameFreed 0) sending).Completes :=
  ⟨fun _ => ⟨entryB, [], entryB.bytes, rfl, rfl⟩, rfl, _, rfl⟩

/-- B is started, fails, and nothing happens after. -/
def fairRun : Nat → State
  | 0 => { idle with now := 1010, txQueue := [entryB], inputs := [.startTx, .txFail] }
  | 1 =>
    { idle with
      now := 1010, radioState := .preamble, current := some entryB, air := [.preamble 1 true], inputs := [.txFail] }
  | _ + 2 => { idle with now := 1010, notifications := [.txComplete entryB.frame .failed], air := [.preamble 1 true] }

theorem fairRun_isRun : IsRun fairRun
  | 0 => .inl rfl
  | 1 => .inl rfl
  | _ + 2 => .inl rfl

theorem fairRun_weaklyFair (t : Turn) : WeaklyFair fairRun t := by
  intro n h
  have := h (n + 2) (by omega)
  cases t <;> simp [State.enables, State.canStart, fairRun, idle, State.reset] at this

theorem fairRun_inv : (fairRun 0).Inv ∧ (fairRun 1).Inv := by
  refine ⟨⟨by simp [fairRun, idle, State.reset], ?_, ?_, by simp [fairRun, idle, State.reset]⟩,
    by simp [fairRun], ?_, ?_, by simp [fairRun, idle, State.reset]⟩
  all_goals simp only [State.owned, fairRun, idle, State.reset, Option.toList, List.nil_append, List.append_nil]
  · exact Nat.succ_le_succ (Nat.zero_le _)
  · exact fun e he => List.mem_singleton.mp he ▸ entryB_sound
  · exact Nat.succ_le_succ (Nat.zero_le _)
  · exact fun e he => List.mem_singleton.mp he ▸ entryB_sound

/-- Place 1 is busy; at place 0 the entry is eligible, and the oldest. -/
theorem witness_FairRunsMakeProgress :
    (IsRun fairRun ∧ (∀ t : Turn, t ≠ .txFail → WeaklyFair fairRun t) ∧ (fairRun 0).Inv ∧ (fairRun 1).Inv) ∧
      (fairRun 1).radioState ≠ .rx ∧ (fairRun 0).canStart entryB ∧
      (fairRun 0).radioState = .rx ∧ (fairRun 0).txQueue = entryB :: [] ∧ entryB.dueAt ≤ (fairRun 0).now :=
  ⟨⟨fairRun_isRun, fun t _ => fairRun_weaklyFair t, fairRun_inv.1, fairRun_inv.2⟩, by decide,
    ⟨rfl, [], [], rfl, by decide, by simp⟩, rfl, rfl, by decide⟩

/-- At a report; and entry B is intact. -/
theorem witness_OwnedFrameLeavesByItsReport :
    (turn .txFail (inPreamble entryB)).Inv ∧ nextTurn (turn .txFail (inPreamble entryB)) = some (.txFail, []) ∧
      Turn.txFail ≠ .reset ∧ (turn .txFail (inPreamble entryB)).Completes ∧
      (turn .txFail (inPreamble entryB)).current = some entryB ∧ entryB.storage = .intact :=
  ⟨inPreamble_inv [.txFail], rfl, by decide, ⟨_, rfl⟩, rfl, rfl⟩

end Sys2Proof.Tests
end

section
/-! PROOFS of the family 10_state.md: what an instruction is, by kind, and what each kind does in every state. -/

namespace Sys2Proof.Machine

open Sys2Proof.Claims

/-! ### The kinds of instruction -/

/-- FRAME_ENC has one answer for all states. -/
theorem encodeFrame_answers (f : Frame) : ∃ r, ∀ s, encodeFrame f s = s.finish r := by
  cases h : frameEnc f with
  | ok bytes => exact ⟨.encoded bytes, fun s => by simp only [encodeFrame, h]⟩
  | error e => exact ⟨.error e, fun s => by simp only [encodeFrame, h]; rfl⟩

/-- FRAME_DEC has one answer for all states. -/
theorem decodeFrame_answers (x : List Byte) : ∃ r, ∀ s, decodeFrame x s = s.finish r := by
  cases h : frameDec x with
  | ok f => exact ⟨.decoded f, fun s => by simp only [decodeFrame, h]⟩
  | error e => exact ⟨.error e, fun s => by simp only [decodeFrame, h]; rfl⟩

/-- SELFTEST has one answer for all states, whatever the vectors give. -/
theorem selfTest_answers : ∃ r, ∀ s, selfTest s = s.finish r := by
  unfold selfTest
  generalize firstFailure 1 selfTestChecks = failure
  cases failure with
  | none => exact ⟨.pass, fun _ => rfl⟩
  | some i => exact ⟨.error (.selfTestFail i), fun _ => rfl⟩

/-- A pure operation has one answer for all states, and writes nothing else. -/
theorem exec_of_isPure {i : Instr} (h : isPure i = true) : ∃ r, ∀ s, exec i s = .next (s.finish r) := by
  cases i
  case frameEnc f =>
    obtain ⟨r, hr⟩ := encodeFrame_answers f
    exact ⟨r, fun s => congrArg Host.Outcome.next (hr s)⟩
  case frameDec x =>
    obtain ⟨r, hr⟩ := decodeFrame_answers x
    exact ⟨r, fun s => congrArg Host.Outcome.next (hr s)⟩
  case selftest =>
    obtain ⟨r, hr⟩ := selfTest_answers
    exact ⟨r, fun s => congrArg Host.Outcome.next (hr s)⟩
  case cksStep | iv2w | iv1w | aesEnc | wrap2w | mac2w | mac1w | crc16 | unwrap2w | crcCheck | cks =>
    exact ⟨_, fun _ => rfl⟩
  all_goals cases h

/-- R90: a command that the host sends is SEND of its frame. -/
theorem exec_of_sentFrame {i : Instr} {f : Frame} {o : SendOpts} (h : sentFrame i = some (f, o)) (s : State) :
    exec i s = .next (sendFrame f o s) := by
  cases i
  case cmd30 _ _ _ p | cmd38 _ _ p | cmd3C _ _ p | cmd3D _ _ p => cases p <;> cases h; rfl
  all_goals cases h <;> rfl

/-- R90: a command that a peer sends is the reception of its frame. -/
theorem exec_of_arrivingFrame {i : Instr} {f : Frame} (h : arrivingFrame i = some f) (s : State) :
    exec i s = .next (receiveFrame f s) := by
  cases i
  case cmd30 _ _ _ p | cmd38 _ _ p | cmd3C _ _ p | cmd3D _ _ p => cases p <;> cases h; rfl
  all_goals cases h <;> rfl

/-- R85, R86, R90: the six kinds of instruction, by what they may write. -/
theorem instr_kinds (i : Instr) :
    (isPure i = true ∧ arrivingFrame i = none) ∨ (∃ a k, i = .wrap1w a k ∨ i = .unwrap1w a k) ∨
    (∃ cb, i = .onReceive cb) ∨ (∃ f o, i = .send f o) ∨
    ((∃ f o, sentFrame i = some (f, o)) ∧ arrivingFrame i = none) ∨ ∃ f, arrivingFrame i = some f := by
  cases i
  case wrap1w a k => exact .inr (.inl ⟨a, k, .inl rfl⟩)
  case unwrap1w a k => exact .inr (.inl ⟨a, k, .inr rfl⟩)
  case onReceive cb => exact .inr (.inr (.inl ⟨cb, rfl⟩))
  case send f o => exact .inr (.inr (.inr (.inl ⟨f, o, rfl⟩)))
  case cmd30 _ _ _ p | cmd38 _ _ p | cmd3C _ _ p | cmd3D _ _ p =>
    cases p with
    | send o => exact .inr (.inr (.inr (.inr (.inl ⟨⟨_, o, rfl⟩, rfl⟩))))
    | receive => exact .inr (.inr (.inr (.inr (.inr ⟨_, rfl⟩))))
  case cmd00 | cmd03 | cmd28 | cmd2A | cmd2C | cmd2E | cmd31 | cmd32 | cmd36 | cmd50 | cmd54 | cmd56 =>
    exact .inr (.inr (.inr (.inr (.inl ⟨⟨_, _, rfl⟩, rfl⟩))))
  case cmd04 | cmd29 | cmd2D | cmd2F | cmd33 | cmd37 | cmd51 | cmd55 | cmd57 | cmdFE =>
    exact .inr (.inr (.inr (.inr (.inr ⟨_, rfl⟩))))
  all_goals exact .inl ⟨rfl, rfl⟩

/-- SEND writes the queue and the result only. -/
theorem sendFrame_eq (f : Frame) (o : SendOpts) (s : State) :
    ∃ queue r, sendFrame f o s = { s with txQueue := queue, result := r } := by
  obtain ⟨-, h⟩ | ⟨-, -, h⟩ | ⟨-, -, e, -, h⟩ | ⟨-, -, bytes, -, h⟩ := sendFrame_cases f o s <;>
    exact ⟨_, _, h⟩

/-- A reception writes the running callback and the notifications only. -/
theorem receiveFrame_eq (f : Frame) (s : State) :
    ∃ running notes, receiveFrame f s = { s with running := running, notifications := notes } := by
  obtain h | ⟨-, -, g, cb, -, h⟩ := receiveFrame_cases f s <;> exact ⟨_, _, h⟩

/-! ### The owned entries -/

/-- R36: the frames that the arbiter owns, the one on the air and the queued ones. -/
theorem storageIntact_iff (s : State) :
    s.storageIntact ↔ (∀ e, s.current = some e → e.storage = .intact) ∧ ∀ e ∈ s.txQueue, e.storage = .intact := by
  simp [State.storageIntact, State.owned, or_imp, forall_and]

/-- An entry that StartTx takes, and the entries it leaves, are those of the queue. -/
theorem eligible_perm {now : Nat} {q rest : List TxEntry} {e : TxEntry} (h : eligible now q = some (e, rest)) :
    (e :: rest).Perm q := by
  obtain ⟨before, after, rfl, rfl, -⟩ := eligible_some h
  exact List.perm_middle.symm

/-- R193, R195: a completion report is of the frame handed over, if its storage was left alone, and ends the ownership of
that frame alone. -/
theorem complete_reports (s : State) (e : TxEntry) (status : TxStatus) :
    (complete s e status).owned = s.txQueue ∧ ∃ g, (e.storage = .intact → g = e.frame) ∧
      (complete s e status).notifications = s.notifications ++ [.txComplete g status] := by
  have hr : e.storage = .intact → reportedFrame s.freeIndex e = e.frame := fun h => by simp only [reportedFrame, h]
  unfold complete State.drawFor
  split <;> exact ⟨rfl, _, hr, rfl⟩

/-- Only a breach changes what an owned frame's storage is. -/
theorem TurnEffect.keeps_storageIntact {turn : Turn} {s t : State} (he : TurnEffect turn s t)
    (hk : turn.keepsOwnership = true) (hs : s.storageIntact) : t.storageIntact := by
  have ⟨hcurrent, hqueue⟩ := (storageIntact_iff s).mp hs
  rw [storageIntact_iff]
  cases he with
  | nothing h | result _ _ _ _ h | callback _ _ _ _ _ h | returned h | clocked _ _ h =>
    subst h; exact ⟨hcurrent, hqueue⟩
  | accepted f o bytes _ _ _ h =>
    subst h
    refine ⟨hcurrent, fun e he => ?_⟩
    obtain he | rfl : e ∈ s.txQueue ∨ e = newEntry s.now f bytes o := by simpa using he
    · exact hqueue e he
    · rfl
  | breached slot st _ which _ => obtain ⟨f, rfl⟩ | rfl := which <;> cases hk
  | started e rest _ _ entry h =>
    subst h
    have hmem : ∀ d ∈ e :: rest, d.storage = .intact := fun d hd => hqueue d ((eligible_perm entry).subset hd)
    refine ⟨fun d hd => hmem d ?_, fun d hd => hmem d (by simp [show d ∈ rest from hd])⟩
    cases hd
    exact List.mem_cons_self
  | onAir e _ _ _ h =>
    obtain ⟨n, hn⟩ := goOnAir_eq s e (sentBytes s.freeIndex e)
    rw [h, hn]
    exact ⟨hcurrent, hqueue⟩
  | repeats e _ _ entry _ _ h =>
    subst h
    exact ⟨nofun, List.forall_mem_cons.mpr ⟨hcurrent e entry, hqueue⟩⟩
  | done e _ _ _ _ h | failed e _ _ _ h =>
    obtain ⟨g, n, hc⟩ := complete_eq s e _
    rw [h, hc]
    exact ⟨nofun, hqueue⟩
  | wasReset _ h => subst h; exact ⟨nofun, nofun⟩

/-- No frame comes into the arbiter's ownership, none leaves it, and no completion is reported. -/
def KeepsOwned (s t : State) : Prop :=
  (t.owned.map TxEntry.frame).Perm (s.owned.map TxEntry.frame) ∧
    t.notifications.filter Notification.isCompletion = s.notifications.filter Notification.isCompletion ∧
    (t.result = some .accepted → s.result = some .accepted)

/-- One frame is accepted, at the end of those owned. -/
def AcceptsOne (s t : State) : Prop :=
  ∃ f o bytes, t.owned = s.owned ++ [acceptedEntry s f bytes o] ∧ t.notifications = s.notifications ∧
    t.result = some .accepted

/-- The entry on the air leaves with its report, at TxDone or TxFail. -/
def ReportsOne (turn : Turn) (s t : State) : Prop :=
  ∃ e g status, s.current = some e ∧ t.owned = s.txQueue ∧
    t.notifications = s.notifications ++ [.txComplete g status] ∧ (e.storage = .intact → g = e.frame) ∧
    ((turn = .txDone ∧ status = .transmitted) ∨ (turn = .txFail ∧ status = .failed))

/-- The owned frames in their order, the notifications and the result stay: the first of the three. -/
theorem KeepsOwned.of_eq {s t : State} (ho : t.owned.map TxEntry.frame = s.owned.map TxEntry.frame)
    (hn : t.notifications = s.notifications) (hr : t.result = s.result) : KeepsOwned s t :=
  ⟨.of_eq ho, by rw [hn], by rw [hr]; exact id⟩

/-- R36, R193, R195: with an entry on the air exactly out of `RX`, a turn but reset keeps the owned frames, or accepts one, or
reports the one on the air. -/
theorem TurnEffect.accounts {turn : Turn} {s t : State} (he : TurnEffect turn s t)
    (hradio : s.current = none ↔ s.radioState = .rx) (hreset : turn ≠ .reset) :
    KeepsOwned s t ∨ AcceptsOne s t ∨ ReportsOne turn s t := by
  cases he with
  | nothing h | returned h | clocked _ _ h => subst h; exact .inl (.of_eq rfl rfl rfl)
  | result r _ _ turnedAway h => subst h; exact .inl ⟨.refl _, rfl, fun hr => absurd hr turnedAway⟩
  | accepted f o bytes _ _ _ h =>
    subst h
    exact .inr (.inl ⟨f, o, bytes, by simp [State.owned, newEntry, acceptedEntry], rfl, rfl⟩)
  | callback f cb _ _ _ h => subst h; exact .inl ⟨.refl _, by simp [Notification.isCompletion], id⟩
  | breached slot st _ _ h =>
    have ho : t.owned.map TxEntry.frame = s.owned.map TxEntry.frame := by
      rw [h, breach_owned, map_frame_modify_breach]
    obtain ⟨queue, current, air, n, -, hb⟩ := breach_eq s slot st
    rw [hb] at h
    exact .inl (.of_eq ho (by rw [h]) (by rw [h]))
  | started e rest _ radio entry h =>
    have hs : s.owned = s.txQueue := by simp [State.owned, hradio.mpr radio]
    have ht : t.owned = e :: rest := by rw [h]; rfl
    refine .inl ⟨?_, by rw [h]; rfl, by rw [h]; exact id⟩
    rw [hs, ht]
    exact (eligible_perm entry).map TxEntry.frame
  | onAir e _ _ _ h =>
    obtain ⟨n, hn⟩ := goOnAir_eq s e (sentBytes s.freeIndex e)
    rw [h, hn]
    exact .inl (.of_eq rfl rfl rfl)
  | repeats e _ _ entry _ _ h =>
    subst h
    exact .inl (.of_eq (by simp [State.owned, entry, repeated]) rfl rfl)
  | done e which _ entry _ h =>
    obtain ⟨ho, g, hg, hn⟩ := complete_reports s e .transmitted
    subst h
    exact .inr (.inr ⟨e, g, .transmitted, entry, ho, hn, hg, .inl ⟨which, rfl⟩⟩)
  | failed e which _ entry h =>
    obtain ⟨ho, g, hg, hn⟩ := complete_reports s e .failed
    subst h
    exact .inr (.inr ⟨e, g, .failed, entry, ho, hn, hg, .inr ⟨which, rfl⟩⟩)
  | wasReset which _ => exact absurd which hreset

/-- With the owned frames kept and no completion reported, the count of both stays. -/
theorem KeepsOwned.count {s t : State} (h : KeepsOwned s t) :
    t.owned.length + t.completions = s.owned.length + s.completions := by
  obtain ⟨ho, hn, -⟩ := h
  have hl : t.owned.length = s.owned.length := by simpa using ho.length_eq
  have hc : t.completions = s.completions := by simp only [State.completions, List.countP_eq_length_filter, hn]
  rw [hl, hc]

/-- The entry that leaves is counted in its report. -/
theorem ReportsOne.count {turn : Turn} {s t : State} (h : ReportsOne turn s t) :
    t.owned.length + t.completions = s.owned.length + s.completions := by
  obtain ⟨e, g, status, hc, ho, hn, -⟩ := h
  have hl : s.owned.length = t.owned.length + 1 := by rw [ho]; simp [State.owned, hc]
  have hr : t.completions = s.completions + 1 := by simp [State.completions, hn, Notification.isCompletion]
  omega

/-- R36: a step with a turn but reset, from a state with the invariant, does one of the three things. -/
theorem step_accounts {s t : State} {turn : Turn} {rest : List Turn} (hinv : s.Inv)
    (hn : nextTurn s = some (turn, rest)) (hreset : turn ≠ .reset) (hs : step s = .next t) :
    KeepsOwned s t ∨ AcceptsOne s t ∨ ReportsOne turn s t :=
  (step_effect hn hs).accounts hinv.1 hreset

/-! ### The result port and the key storage -/

/-- The state with another result and another key storage. -/
def State.withPorts (s : State) (r : Option OpResult) (k : Bytes 16) : State := { s with result := r, callerKey := k }

/-- The state after `f` depends on neither field but where `f` left the field alone. -/
def PortsUnread (f : State → State) : Prop :=
  ∀ s r k, ∃ r' k', f (s.withPorts r k) = (f s).withPorts r' k' ∧
    (r' = (f s).result ∨ (r' = r ∧ (f s).result = s.result)) ∧
    (k' = (f s).callerKey ∨ (k' = k ∧ (f s).callerKey = s.callerKey))

/-- A turn's meaning that never reads the two fields: it answers a next state so, or is refused in every state alike. -/
def OutcomeUnread (run : State → Host.Outcome State Fault Refusal) : Prop :=
  (∃ f, PortsUnread f ∧ ∀ s, run s = .next (f s)) ∨ ∃ e, ∀ s, run s = .refused e

/-- An update that carries the two fields along leaves them alone: `f s` itself carries those of `s`. -/
theorem PortsUnread.of_carries {f : State → State}
    (h : ∀ s r k, f (s.withPorts r k) = (f s).withPorts r k) : PortsUnread f := by
  intro s r k
  have own : f s = (f s).withPorts s.result s.callerKey := h s s.result s.callerKey
  exact ⟨r, k, h s r k, .inr ⟨rfl, (congrArg State.result own :)⟩, .inr ⟨rfl, (congrArg State.callerKey own :)⟩⟩

/-- An update that writes its result and carries the key storage along. -/
theorem PortsUnread.of_answers {f : State → State}
    (h : ∀ s r k, f (s.withPorts r k) = (f s).withPorts (f s).result k) : PortsUnread f := by
  intro s r k
  have own : f s = (f s).withPorts (f s).result s.callerKey := h s s.result s.callerKey
  exact ⟨_, k, h s r k, .inl rfl, .inr ⟨rfl, (congrArg State.callerKey own :)⟩⟩

/-- An update that writes both fields. -/
theorem PortsUnread.of_overwrites {f : State → State} (h : ∀ s r k, f (s.withPorts r k) = f s) : PortsUnread f :=
  fun s r k => ⟨_, _, h s r k, .inl rfl, .inl rfl⟩

@[simp] theorem State.withPorts_radioState (s : State) (r : Option OpResult) (k : Bytes 16) :
    (s.withPorts r k).radioState = s.radioState := rfl
@[simp] theorem State.withPorts_txQueue (s : State) (r : Option OpResult) (k : Bytes 16) :
    (s.withPorts r k).txQueue = s.txQueue := rfl
@[simp] theorem State.withPorts_current (s : State) (r : Option OpResult) (k : Bytes 16) :
    (s.withPorts r k).current = s.current := rfl
@[simp] theorem State.withPorts_rxCallback (s : State) (r : Option OpResult) (k : Bytes 16) :
    (s.withPorts r k).rxCallback = s.rxCallback := rfl
@[simp] theorem State.withPorts_now (s : State) (r : Option OpResult) (k : Bytes 16) :
    (s.withPorts r k).now = s.now := rfl
@[simp] theorem State.withPorts_running (s : State) (r : Option OpResult) (k : Bytes 16) :
    (s.withPorts r k).running = s.running := rfl
@[simp] theorem State.withPorts_air (s : State) (r : Option OpResult) (k : Bytes 16) :
    (s.withPorts r k).air = s.air := rfl
@[simp] theorem State.withPorts_freeIndex (s : State) (r : Option OpResult) (k : Bytes 16) :
    (s.withPorts r k).freeIndex = s.freeIndex := rfl

@[simp] theorem State.notify_withPorts (s : State) (n : Notification) (r : Option OpResult) (k : Bytes 16) :
    (s.withPorts r k).notify n = (s.notify n).withPorts r k := rfl
@[simp] theorem State.emit_withPorts (s : State) (a : AirEvent) (r : Option OpResult) (k : Bytes 16) :
    (s.withPorts r k).emit a = (s.emit a).withPorts r k := rfl
@[simp] theorem State.enterCallback_withPorts (s : State) (cb : Nat) (f : Frame) (r : Option OpResult) (k : Bytes 16) :
    (s.withPorts r k).enterCallback cb f = (s.enterCallback cb f).withPorts r k := rfl
@[simp] theorem State.requeue_withPorts (s : State) (e : TxEntry) (r : Option OpResult) (k : Bytes 16) :
    (s.withPorts r k).requeue e = (s.requeue e).withPorts r k := rfl
@[simp] theorem State.beginTx_withPorts (s : State) (e : TxEntry) (q : List TxEntry) (r : Option OpResult)
    (k : Bytes 16) : (s.withPorts r k).beginTx e q = (s.beginTx e q).withPorts r k := rfl
@[simp] theorem State.goOnAir_withPorts (s : State) (r : Option OpResult) (k : Bytes 16) :
    (s.withPorts r k).goOnAir = s.goOnAir.withPorts r k := rfl
@[simp] theorem State.endTx_withPorts (s : State) (r : Option OpResult) (k : Bytes 16) :
    (s.withPorts r k).endTx = s.endTx.withPorts r k := rfl

@[simp] theorem State.drawFor_withPorts (s : State) (e : TxEntry) (r : Option OpResult) (k : Bytes 16) :
    (s.withPorts r k).drawFor e = (s.drawFor e).withPorts r k := by
  unfold State.drawFor
  split <;> rfl

@[simp] theorem complete_withPorts (s : State) (e : TxEntry) (status : TxStatus) (r : Option OpResult) (k : Bytes 16) :
    complete (s.withPorts r k) e status = (complete s e status).withPorts r k := by
  simp [complete]

theorem portsUnread_startTx : PortsUnread startTx := by
  refine .of_carries fun s r k => ?_
  by_cases hr : s.radioState = .rx
  · cases he : eligible s.now s.txQueue <;> simp [startTx, hr, he]
  · simp [startTx, hr]

theorem portsUnread_preambleDone : PortsUnread preambleDone := by
  refine .of_carries fun s r k => ?_
  unfold preambleDone
  simp only [State.withPorts_radioState, State.withPorts_current]
  split <;> simp

theorem portsUnread_txDone : PortsUnread txDone := by
  refine .of_carries fun s r k => ?_
  unfold txDone
  simp only [State.withPorts_radioState, State.withPorts_current]
  split
  · next e _ _ => by_cases h : 0 < e.repeatsLeft ∧ repeatsContinue e s.txQueue <;> simp [h]
  · rfl

theorem portsUnread_txFail : PortsUnread txFail := by
  refine .of_carries fun s r k => ?_
  unfold txFail
  simp only [State.withPorts_radioState, State.withPorts_current]
  split <;> simp

theorem portsUnread_rxFrame (x : List Byte) : PortsUnread (rxFrame x) := by
  refine .of_carries fun s r k => ?_
  by_cases h : s.radioState = .rx ∧ s.running = none
  · cases hd : frameDec x <;> cases hc : s.rxCallback <;> simp [rxFrame, h, hd, hc]
  · simp [rxFrame, h]

theorem portsUnread_receiveFrame (f : Frame) : PortsUnread (receiveFrame f) := by
  unfold receiveFrame
  cases frameEnc f with
  | ok bytes => exact portsUnread_rxFrame bytes
  | error e => exact .of_carries fun _ _ _ => rfl

theorem disturbAir_withPorts (s : State) (r : Option OpResult) (k : Bytes 16) :
    (s.withPorts r k).disturbAir = s.disturbAir.withPorts r k := by
  unfold State.disturbAir
  simp only [State.withPorts_radioState, State.withPorts_air]
  split <;> rfl

theorem portsUnread_breach (slot : Nat) (st : FrameStorage) : PortsUnread fun s => s.breach slot st := by
  refine .of_carries fun s r k => ?_
  unfold State.breach
  simp only [State.withPorts_current]
  split
  · rfl
  · next c _ =>
    split
    · exact disturbAir_withPorts { s with current := some (c.breach st) } r k
    · rfl

theorem portsUnread_sendFrame (f : Frame) (o : SendOpts) : PortsUnread (sendFrame f o) := by
  refine .of_answers fun s r k => ?_
  by_cases hr : s.radioState = .tx ∨ s.radioState = .preamble
  · simp only [sendFrame, State.withPorts_radioState, hr, if_true]
    rfl
  · by_cases hq : s.txQueue.length = Config.txqDepth
    · simp only [sendFrame, State.withPorts_radioState, State.withPorts_txQueue, hr, hq, if_true, if_false]
      rfl
    · cases he : frameEnc f <;>
        simp only [sendFrame, State.withPorts_radioState, State.withPorts_txQueue, hr, hq, he, if_false] <;> rfl

/-- R22, R37, R146: no instruction reads the result port or the key storage. -/
theorem outcomeUnread_exec (i : Instr) : OutcomeUnread (exec i) := by
  obtain ⟨h, -⟩ | ⟨a, k, rfl | rfl⟩ | ⟨cb, rfl⟩ | ⟨f, o, rfl⟩ | ⟨⟨f, o, h⟩, -⟩ | ⟨f, h⟩ := instr_kinds i
  · obtain ⟨r, hr⟩ := exec_of_isPure h
    exact .inl ⟨_, .of_answers fun _ _ _ => rfl, hr⟩
  · exact .inl ⟨_, .of_overwrites fun _ _ _ => rfl, fun _ => rfl⟩
  · exact .inl ⟨_, .of_overwrites fun _ _ _ => rfl, fun _ => rfl⟩
  · exact .inl ⟨_, .of_answers fun _ _ _ => rfl, fun _ => rfl⟩
  · exact .inl ⟨_, portsUnread_sendFrame f o, fun _ => rfl⟩
  · exact .inl ⟨_, portsUnread_sendFrame f o, exec_of_sentFrame h⟩
  · exact .inl ⟨_, portsUnread_receiveFrame f, exec_of_arrivingFrame h⟩

/-- A request that is an operation runs its meaning. -/
theorem runTurn_operation {request : List Byte} {i : Instr} (h : decodeOperation request = .ok i) :
    runTurn (.operation request) = exec i := by
  funext s
  simp only [runTurn, h]

/-- A frame that carries a command runs its meaning. -/
theorem runTurn_command {request : List Byte} {i : Instr} (h : decodeCommand request = .ok i) :
    runTurn (.command request) = exec i := by
  funext s
  simp only [runTurn, h]

/-- No turn reads the result port or the key storage. -/
theorem outcomeUnread_runTurn (turn : Turn) : OutcomeUnread (runTurn turn) := by
  cases turn with
  | operation request =>
    cases hd : decodeOperation request with
    | ok i => exact runTurn_operation hd ▸ outcomeUnread_exec i
    | error e =>
      cases e with
      | unknownOp code =>
        exact .inl ⟨(·.raise (.unknownOp code)), .of_answers fun _ _ _ => rfl, fun s => by simp only [runTurn, hd]⟩
      | empty | uncatalogued _ | malformed _ => exact .inr ⟨.malformedRequest, fun s => by simp only [runTurn, hd]⟩
  | command request =>
    cases hd : decodeCommand request with
    | ok i => exact runTurn_command hd ▸ outcomeUnread_exec i
    | error e => exact .inr ⟨.malformedRequest, fun s => by simp only [runTurn, hd]⟩
  | callbackReturns => exact .inl ⟨_, .of_carries fun _ _ _ => rfl, fun _ => rfl⟩
  | frameChanged slot f => exact .inl ⟨_, portsUnread_breach slot (.changed f), fun _ => rfl⟩
  | frameFreed slot => exact .inl ⟨_, portsUnread_breach slot .freed, fun _ => rfl⟩
  | startTx => exact .inl ⟨_, portsUnread_startTx, fun _ => rfl⟩
  | preambleDone => exact .inl ⟨_, portsUnread_preambleDone, fun _ => rfl⟩
  | txDone => exact .inl ⟨_, portsUnread_txDone, fun _ => rfl⟩
  | txFail => exact .inl ⟨_, portsUnread_txFail, fun _ => rfl⟩
  | rxFrame x => exact .inl ⟨_, portsUnread_rxFrame x, fun _ => rfl⟩
  | clock ms => exact .inl ⟨_, .of_carries fun _ _ _ => rfl, fun _ => rfl⟩
  | reset => exact .inl ⟨_, .of_answers fun _ _ _ => rfl, fun _ => rfl⟩

/-! ### The step -/

/-- With no turn to take a step waits. -/
theorem step_of_no_turn {s : State} (h : nextTurn s = none) : step s = .next s := by
  simp only [step, h]

/-- A step is the meaning of the next turn, in the state without it. -/
theorem step_of_turn {s : State} {turn : Turn} {rest : List Turn} (h : nextTurn s = some (turn, rest)) :
    step s = runTurn turn { s with inputs := rest } := by
  simp only [step, h]

/-- The two fields have no part in which turn is next. -/
theorem nextTurn_withPorts (s : State) (r : Option OpResult) (k : Bytes 16) :
    nextTurn (s.withPorts r k) = nextTurn s := rfl

/-- A step runs one meaning, which never reads the two fields, whatever they hold. -/
theorem step_unread (s : State) : ∃ run s₀, OutcomeUnread run ∧ s₀.result = s.result ∧ s₀.callerKey = s.callerKey ∧
    step s = run s₀ ∧ ∀ r k, step (s.withPorts r k) = run (s₀.withPorts r k) := by
  cases h : nextTurn s with
  | none =>
    exact ⟨.next, s, .inl ⟨_, .of_carries fun _ _ _ => rfl, fun _ => rfl⟩, rfl, rfl, step_of_no_turn h,
      fun r k => step_of_no_turn ((nextTurn_withPorts s r k).trans h)⟩
  | some p =>
    obtain ⟨turn, rest⟩ := p
    exact ⟨runTurn turn, { s with inputs := rest }, outcomeUnread_runTurn turn, rfl, rfl, step_of_turn h,
      fun r k => step_of_turn ((nextTurn_withPorts s r k).trans h)⟩

/-! ### The statements -/

/-- Settles O9, by the step on a turn and without one. -/
theorem quietTurns : Obligations.QuietTurns :=
  fun _ _ _ => ⟨step_of_no_turn, step_of_turn, step_of_turn⟩

/-- Settles O47: each field of the state after reset. -/
theorem resetLeavesTheArbiterEmpty : Obligations.ResetLeavesTheArbiterEmpty :=
  ⟨rfl, rfl, rfl, rfl, rfl, rfl⟩

/-- Settles O25, by the one answer of each pure operation. -/
theorem pureOperationsDependOnNothing : Obligations.PureOperationsDependOnNothing :=
  fun _ => exec_of_isPure

/-- Settles O37, kind by kind: each kind's meaning as one update of the state. -/
theorem operationsChangeOnlyWhatIsTheirs : Obligations.OperationsChangeOnlyWhatIsTheirs := by
  intro i s
  obtain ⟨h, ha⟩ | ⟨a, k, rfl | rfl⟩ | ⟨cb, rfl⟩ | ⟨f, o, rfl⟩ | ⟨⟨f, o, h⟩, ha⟩ | ⟨f, h⟩ := instr_kinds i
  · obtain ⟨r, hr⟩ := exec_of_isPure h
    refine ⟨_, hr s, ?_⟩
    simp [ha]
  · exact ⟨_, rfl, by simp [arrivingFrame]⟩
  · exact ⟨_, rfl, by simp [arrivingFrame]⟩
  · exact ⟨_, rfl, by simp [arrivingFrame]⟩
  · obtain ⟨queue, r, hs⟩ := sendFrame_eq f o s
    exact ⟨_, congrArg Host.Outcome.next hs, rfl, rfl, rfl, rfl, rfl, rfl, fun _ => rfl, fun _ => rfl,
      fun hq => absurd rfl (hq f o).1, fun _ => ⟨rfl, rfl⟩, nofun⟩
  · obtain ⟨queue, r, hs⟩ := sendFrame_eq f o s
    exact ⟨_, (exec_of_sentFrame h s).trans (congrArg Host.Outcome.next hs), rfl, rfl, rfl, rfl, rfl, rfl,
      fun _ => rfl, fun _ => rfl, fun hq => absurd h (hq f o).2, fun _ => ⟨rfl, rfl⟩, by simp [ha]⟩
  · obtain ⟨running, notes, hs⟩ := receiveFrame_eq f s
    exact ⟨_, (exec_of_arrivingFrame h s).trans (congrArg Host.Outcome.next hs), by simp [h]⟩

/-- Settles O50, by what a turn can have done to the owned entries. -/
theorem stepKeepsStorageIntact : Obligations.StepKeepsStorageIntact :=
  fun _ _ _ _ hn hk hi hs => (step_effect hn hs).keeps_storageIntact hk hi

/-- Settles O60, by what a turn can have done to the owned entries. -/
theorem ownedFrameLeavesByItsReport : Obligations.OwnedFrameLeavesByItsReport :=
  fun _ _ _ _ hinv hn hreset hs => step_accounts hinv hn hreset hs

/-- Settles O52, by counting in each of the three things of O60. -/
theorem ownedPlusReportedIsConserved : Obligations.OwnedPlusReportedIsConserved := by
  intro s t turn rest hinv hn hreset hs
  obtain h | ⟨f, o, bytes, howned, hnotes, hresult⟩ | h := step_accounts hinv hn hreset hs
  · exact .inl h.count
  · exact .inr ⟨hresult, congrArg (List.countP Notification.isCompletion) hnotes, _, howned⟩
  · exact .inl h.count

/-- Settles O55: a step runs a meaning that never reads the two fields. -/
theorem resultsAndKeysAreNeverRead : Obligations.ResultsAndKeysAreNeverRead := by
  intro s r k
  obtain ⟨run, s₀, hrun, hresult, hkey, hstep, hports⟩ := step_unread s
  change eraseOutcome (step (s.withPorts r k)) = eraseOutcome (step s) ∧
    ∀ t u, step s = .next t → step (s.withPorts r k) = .next u → _
  rw [hstep, hports]
  obtain ⟨f, hf, hnext⟩ | ⟨e, hrefused⟩ := hrun
  · obtain ⟨r', k', heq, hr, hk⟩ := hf s₀ r k
    rw [hnext, hnext, heq]
    refine ⟨rfl, fun t u ht hu => ?_⟩
    cases ht
    cases hu
    rw [← hresult, ← hkey]
    exact ⟨hr, hk⟩
  · rw [hrefused, hrefused]
    exact ⟨rfl, fun _ _ ht => by cases ht⟩

end Sys2Proof.Machine
end

section
/-! PROOFS of the family 20_memory.md: which steps complete, and what the step of a request does. -/

namespace Sys2Proof.Machine

/-! ### What completes -/

/-- R250: each instruction answers a next state, an error as its result included. -/
theorem exec_completes (i : Instr) (s : State) : ∃ t, exec i s = .next t := by
  obtain ⟨r, -, h⟩ | ⟨a, k, -, h⟩ | ⟨cb, -, h⟩ | ⟨f, o, h⟩ | ⟨f, h⟩ := exec_cases i s <;>
    exact ⟨_, h⟩

/-- R54, R85: an operation request completes, an unknown code with `UnknownOp`, or it is no instruction and is refused. -/
theorem runTurn_operation_cases (request : List Byte) (s : State) :
    (∃ t, runTurn (.operation request) s = .next t) ∨
    (runTurn (.operation request) s = .refused .malformedRequest ∧ ∀ i, decodeOperation request ≠ .ok i) := by
  cases hd : decodeOperation request with
  | ok i => exact .inl (runTurn_operation hd ▸ exec_completes i s)
  | error e =>
    cases e with
    | unknownOp code => exact .inl ⟨s.raise (.unknownOp code), by simp only [runTurn, hd]⟩
    | empty | uncatalogued _ | malformed _ => exact .inr ⟨by simp only [runTurn, hd], nofun⟩

/-- R54, R90: a command request completes, or it is no instruction and is refused. -/
theorem runTurn_command_cases (request : List Byte) (s : State) :
    (∃ t, runTurn (.command request) s = .next t) ∨
    (runTurn (.command request) s = .refused .malformedRequest ∧ ∀ i, decodeCommand request ≠ .ok i) := by
  cases hd : decodeCommand request with
  | ok i => exact .inl (runTurn_command hd ▸ exec_completes i s)
  | error e => exact .inr ⟨by simp only [runTurn, hd], nofun⟩

/-- The turns that can stop are the two kinds of request; every other turn has a next state. -/
theorem runTurn_cases (turn : Turn) (s : State) :
    (∃ t, runTurn turn s = .next t) ∨
    (runTurn turn s = .refused .malformedRequest ∧ ∃ request,
      (turn = .operation request ∧ ∀ i, decodeOperation request ≠ .ok i) ∨
      (turn = .command request ∧ ∀ i, decodeCommand request ≠ .ok i)) := by
  cases turn with
  | operation request =>
    exact (runTurn_operation_cases request s).imp_right fun ⟨hr, hd⟩ => ⟨hr, request, .inl ⟨rfl, hd⟩⟩
  | command request =>
    exact (runTurn_command_cases request s).imp_right fun ⟨hr, hd⟩ => ⟨hr, request, .inr ⟨rfl, hd⟩⟩
  | callbackReturns | frameChanged | frameFreed | startTx | preambleDone | txDone | txFail | rxFrame | clock | reset =>
    exact .inl ⟨_, rfl⟩

/-! ### The statements -/

/-- Settles O8: a step waits or runs its turn, and a turn that does not complete is a request that is no instruction. -/
theorem stepStopsOnlyOnMalformedRequests : Obligations.StepStopsOnlyOnMalformedRequests := by
  intro s
  cases hn : nextTurn s with
  | none => exact .inl ⟨s, step_of_no_turn hn⟩
  | some p =>
    obtain ⟨turn, rest⟩ := p
    have hstep := step_of_turn hn
    obtain ⟨t, ht⟩ | ⟨hr, request, ⟨rfl, hd⟩ | ⟨rfl, hd⟩⟩ := runTurn_cases turn { s with inputs := rest }
    · exact .inl ⟨t, hstep.trans ht⟩
    · exact .inr ⟨hstep.trans hr, request, rest, .inl ⟨rfl, hd⟩⟩
    · exact .inr ⟨hstep.trans hr, request, rest, .inr ⟨rfl, hd⟩⟩

/-- Settles O6: the step is the turn's meaning, and the turn's meaning is that of the instruction its request decodes to. -/
theorem stepRunsTheDecodedInstruction : Obligations.StepRunsTheDecodedInstruction :=
  fun _ _ _ _ =>
    ⟨fun hn hd => (step_of_turn hn).trans (congrFun (runTurn_operation hd) _),
      fun hn hd => (step_of_turn hn).trans (congrFun (runTurn_command hd) _)⟩

end Sys2Proof.Machine
end

section
/-! PROOFS of the family 30_encoding.md: decoding inverts encoding, the codes are the tables, and what a wire command does. -/

namespace Sys2Proof

open Sys2Proof.Claims

/-! ### Decoding what was encoded -/

/-- `reader` takes exactly `bytes` off the front, whatever follows them, and reads `a` from them. -/
def ReadsBack {α : Type} (reader : Reader α) (bytes : List Byte) (a : α) : Prop :=
  ∀ rest, reader (bytes ++ rest) = some (a, rest)

/-- A request whose operands are read back, with zero padding after them, is read as that instruction. -/
theorem readWhole_of_readsBack {reader : Reader Instr} {bytes : List Byte} {i : Instr} (h : ReadsBack reader bytes i)
    (code : Byte) (n : Nat) : readWhole code reader (bytes ++ List.replicate n 0) = .ok i := by
  simp only [readWhole, h (List.replicate n 0)]
  simp

theorem decodeOperation_of_reader {code : Byte} {reader : Reader Instr} (h : operationReader code.toNat = some reader)
    (operands : List Byte) : decodeOperation (code :: operands) = readWhole code reader operands := by
  simp only [decodeOperation, h]

theorem decodeCommand_of_reader {cmd : Byte} {reader : Reader Instr} (h : commandReader cmd.toNat = some reader)
    (operands : List Byte) : decodeCommand (cmd :: operands) = readWhole cmd reader operands := by
  simp only [decodeCommand, h]

/-- A header and options are read back. -/
theorem readsBack_readPlain (make : FrameHeader → SendOpts → Instr) (h : FrameHeader) (o : SendOpts) :
    ReadsBack (readPlain make) (writeHeader h ++ writeOpts o) (make h o) := by
  intro rest
  simp [readPlain]

/-- A header and a fixed payload are read back. -/
theorem readsBack_readAnswer {n : Nat} (make : FrameHeader → Bytes n → Instr) (h : FrameHeader) (p : Bytes n) :
    ReadsBack (readAnswer n make) (writeHeader h ++ p.data) (make h p) := by
  intro rest
  simp [readAnswer]

/-- A header, a fixed payload and a passage are read back. -/
theorem readsBack_readEither {n : Nat} (make : FrameHeader → Bytes n → Passage → Instr) (h : FrameHeader) (p : Bytes n)
    (passage : Passage) :
    ReadsBack (readEither n make) (writeHeader h ++ p.data ++ writePassage passage) (make h p passage) := by
  intro rest
  simp [readEither]

/-- R85, R25: an operation's words are its code, and operands that the code's reader reads back. -/
theorem operation_readsBack {i : Instr} (h : i.format = .op8) : ∃ code operands reader,
    encode i = code :: operands ∧ operationReader code.toNat = some reader ∧ ReadsBack reader operands i := by
  cases i
  case cksStep | iv2w | iv1w | aesEnc | wrap2w | wrap1w | mac2w | mac1w | crc16 | frameEnc | frameDec | send | onReceive
      | selftest =>
    exact ⟨_, _, _, rfl, rfl, fun rest => by simp⟩
  all_goals cases h

/-- R90: a wire command's words are its byte, and what stands beside it, which the byte's reader reads back. -/
theorem command_readsBack {i : Instr} (h : i.format = .wireCmd) : ∃ cmd operands reader,
    encode i = cmd :: operands ∧ commandReader cmd.toNat = some reader ∧ ReadsBack reader operands i := by
  cases i
  case cmd03 | cmd2C | cmd2E | cmd31 | cmd36 | cmd50 | cmd54 | cmd56 =>
    exact ⟨_, _, _, rfl, rfl, readsBack_readPlain _ _ _⟩
  case cmd29 | cmd37 | cmd51 | cmd55 | cmd57 =>
    exact ⟨_, _, _, rfl, rfl, readsBack_readAnswer _ _ _⟩
  case cmd38 | cmd3C | cmd3D =>
    exact ⟨_, _, _, rfl, rfl, readsBack_readEither _ _ _ _⟩
  case cmd00 | cmd04 | cmd28 | cmd2A | cmd2D | cmd2F | cmd30 | cmd32 | cmd33 | cmdFE =>
    exact ⟨_, _, _, rfl, rfl, fun rest => by simp⟩
  all_goals cases h

/-- Settles O1: the code picks the reader that reads the operands back. -/
theorem operationDecodesAsEncoded : Obligations.OperationDecodesAsEncoded := by
  intro i n h
  obtain ⟨code, operands, reader, hwords, hreader, hback⟩ := operation_readsBack h
  rw [hwords]
  exact (decodeOperation_of_reader hreader _).trans (readWhole_of_readsBack hback code n)

/-- Settles O2: the command byte picks the reader that reads what stands beside it back. -/
theorem commandDecodesAsEncoded : Obligations.CommandDecodesAsEncoded := by
  intro i n h
  obtain ⟨cmd, operands, reader, hwords, hreader, hback⟩ := command_readsBack h
  rw [hwords]
  exact (decodeCommand_of_reader hreader _).trans (readWhole_of_readsBack hback cmd n)

/-! ### The tables of codes -/

/-- R85: every code that has a reader is in the table. -/
theorem mem_operationCodes_of_reader {code : Byte} {reader : Reader Instr}
    (h : operationReader code.toNat = some reader) : code ∈ operationCodes := by
  unfold operationReader at h
  split at h
  case h_15 => cases h
  all_goals
    rename_i hcode
    simp [operationCodes, ← BitVec.toNat_inj, hcode]

/-- R90: every command byte that has a reader is in the catalog. -/
theorem mem_commandBytes_of_reader {cmd : Byte} {reader : Reader Instr}
    (h : commandReader cmd.toNat = some reader) : cmd ∈ commandBytes := by
  unfold commandReader at h
  split at h
  case h_27 => cases h
  all_goals
    rename_i hcmd
    simp [commandBytes, ← BitVec.toNat_inj, hcmd]

/-- R85: a code outside the table is named as unknown, whatever follows it. -/
theorem decodeOperation_of_not_mem {code : Byte} (h : code ∉ operationCodes) (operands : List Byte) :
    decodeOperation (code :: operands) = .error (.unknownOp code) := by
  have hnone : operationReader code.toNat = none :=
    Option.eq_none_iff_forall_ne_some.mpr fun _ hr => h (mem_operationCodes_of_reader hr)
  simp only [decodeOperation, hnone]

/-- R90: a byte outside the catalog is named as uncatalogued, whatever follows it. -/
theorem decodeCommand_of_not_mem {cmd : Byte} (h : cmd ∉ commandBytes) (rest : List Byte) :
    decodeCommand (cmd :: rest) = .error (.uncatalogued cmd) := by
  have hnone : commandReader cmd.toNat = none :=
    Option.eq_none_iff_forall_ne_some.mpr fun _ hr => h (mem_commandBytes_of_reader hr)
  simp only [decodeCommand, hnone]

/-- A decoder that does not reject a request names an instruction. -/
theorem exists_ok_of_isSome {x : Except DecodeError Instr} (h : x.toOption.isSome = true) : ∃ i, x = .ok i := by
  cases x with
  | ok i => exact ⟨i, rfl⟩
  | error e => cases h

/-- R85: each code of the table is an operation, since zero bytes are operands of any. -/
theorem decodeOperation_zeros {code : Byte} (h : code ∈ operationCodes) :
    ∃ i, decodeOperation (code :: List.replicate 64 0) = .ok i := by
  have hok : ∀ code ∈ operationCodes, (decodeOperation (code :: List.replicate 64 0)).toOption.isSome := by decide
  exact exists_ok_of_isSome (hok code h)

/-- R90: each byte of the catalog is a command, since zero bytes may stand beside any. -/
theorem decodeCommand_zeros {cmd : Byte} (h : cmd ∈ commandBytes) :
    ∃ i, decodeCommand (cmd :: List.replicate 64 0) = .ok i := by
  have hok : ∀ cmd ∈ commandBytes, (decodeCommand (cmd :: List.replicate 64 0)).toOption.isSome := by decide
  exact exists_ok_of_isSome (hok cmd h)

/-- Settles O3: a code outside its table is rejected by name, and one in it decodes with zeros after it. -/
theorem codesAreTheTables : Obligations.CodesAreTheTables := by
  refine ⟨fun code => ⟨?_, fun h => ⟨_, decodeOperation_zeros h⟩⟩, fun cmd => ⟨?_, fun h => ⟨_, decodeCommand_zeros h⟩⟩⟩
  · rintro ⟨l, i, hok⟩
    by_contra hcode
    cases (decodeOperation_of_not_mem hcode l).symm.trans hok
  · rintro ⟨l, i, hok⟩
    by_contra hcmd
    cases (decodeCommand_of_not_mem hcmd l).symm.trans hok

/-- Settles O4, by reading each request. -/
theorem writtenWordsDecode : Obligations.WrittenWordsDecode :=
  ⟨rfl, rfl, rfl, rfl, rfl⟩

end Sys2Proof

namespace Sys2Proof.Machine

open Sys2Proof.Claims

/-! ### The turn of an unknown code -/

/-- R85, R251: the turn of an unknown code raises `UnknownOp` with the code. -/
theorem runTurn_unknown {code : Byte} (h : code ∉ operationCodes) (operands : List Byte) (s : State) :
    runTurn (.operation (code :: operands)) s = .next (s.raise (.unknownOp code)) := by
  simp only [runTurn, decodeOperation_of_not_mem h]

/-- Settles O7: the step is the turn of an unknown code. -/
theorem unknownCodeAnswersUnknownOp : Obligations.UnknownCodeAnswersUnknownOp :=
  fun _ _ operands _ hn h => (step_of_turn hn).trans (runTurn_unknown h operands _)

/-! ### A frame's bytes -/

/-- R165: a record has an encoding exactly when its payload is no longer than 21 bytes. -/
theorem frameEnc_ok_iff {f : Frame} {bytes : List Byte} :
    frameEnc f = .ok bytes ↔ f.payload.length ≤ 21 ∧ bytes = preCrcBytes f ++ crcBytes (crc16 (preCrcBytes f)) := by
  obtain h | h := Nat.lt_or_ge 21 f.payload.length
  · simp [frameEnc_of_gt h, Nat.not_le.mpr h]
  · simp [frameEnc_of_le h, h, eq_comm]

theorem crcBytes_length (crc : Half) : (crcBytes crc).length = 2 := rfl

/-- R70, R73: the nine bytes of the header, source first, then the payload. -/
theorem preCrcBytes_eq {f : Frame} {a b c x y z : Byte} (hs : f.source.data = [a, b, c])
    (ht : f.target.data = [x, y, z]) : preCrcBytes f =
      [ctrl1 (8 + f.payload.length) f.protocol f.startFrame f.endFrame, f.ctrl2, a, b, c, x, y, z, f.cmd] ++
        f.payload := by
  simp [preCrcBytes, addressBytes, addrOrder, headerLen, hs, ht]

/-- R8, R9: an address is three bytes. -/
theorem address_eq (a : Bytes 3) : ∃ x y z, a.data = [x, y, z] :=
  List.length_eq_three.mp a.size

/-- R70: the command byte is byte 8 of a frame's bytes. -/
theorem frameEnc_cmd {f : Frame} {bytes : List Byte} (h : frameEnc f = .ok bytes) : bytes.getD 8 0 = f.cmd := by
  obtain ⟨-, rfl⟩ := frameEnc_ok_iff.mp h
  obtain ⟨a, b, c, hs⟩ := address_eq f.source
  obtain ⟨x, y, z, ht⟩ := address_eq f.target
  rw [preCrcBytes_eq hs ht]
  rfl

theorem preCrcBytes_length (f : Frame) : (preCrcBytes f).length = 9 + f.payload.length := by
  obtain ⟨a, b, c, hs⟩ := address_eq f.source
  obtain ⟨x, y, z, ht⟩ := address_eq f.target
  rw [preCrcBytes_eq hs ht, List.length_append]
  rfl

/-- R70: nine bytes before the payload and two after it. -/
theorem frameEnc_length {f : Frame} {bytes : List Byte} (h : frameEnc f = .ok bytes) :
    bytes.length = 11 + f.payload.length := by
  obtain ⟨-, rfl⟩ := frameEnc_ok_iff.mp h
  simp only [List.length_append, preCrcBytes_length, crcBytes_length]
  omega

/-- R162: a 16-bit value is its low byte and its high byte. -/
theorem half_eq_bytes (crc : Half) :
    (crc.extractLsb' 0 8).zeroExtend 16 ||| ((crc.extractLsb' 8 8).zeroExtend 16 <<< 8) = crc := by
  ext i hi
  by_cases h : i < 8
  · simp [h, hi]
  · have hhigh : i - 8 < 8 := by omega
    simp [h, hi, hhigh, show 8 + (i - 8) = i by omega]

/-- R163: a string with its CRC after it checks good. -/
theorem crcGood_append_crc (x : List Byte) : crcGood (x ++ crcBytes (crc16 x)) = true := by
  simp [crcGood, crcBytes, half_eq_bytes]

/-- R72: the flags of `ctrl1` lie outside its length field. -/
theorem ctrl1_and_lengthMask (m : Nat) (p s e : BitVec 1) : ctrl1 m p s e &&& 0x1F#8 = BitVec.ofNat 8 m &&& 0x1F#8 := by
  have flags : ((p.zeroExtend 8 <<< 5) &&& 0x1F#8) ||| (((s.zeroExtend 8 <<< 6) &&& 0x1F#8) |||
      ((e.zeroExtend 8 <<< 7) &&& 0x1F#8)) = 0#8 := by
    revert p s e
    decide
  simp only [ctrl1, BitVec.and_or_distrib_right, BitVec.or_assoc]
  rw [flags, BitVec.or_zero]

/-- R72: the length field of `ctrl1` reads the length. -/
theorem ctrl1MsgLen_ctrl1 {m : Nat} (h : m < 32) (p s e : BitVec 1) : ctrl1MsgLen (ctrl1 m p s e) = m := by
  have hmask : (BitVec.ofNat 8 m &&& 0x1F#8).toNat = m % 256 % 32 := by
    rw [BitVec.toNat_and, BitVec.toNat_ofNat]
    exact Nat.and_two_pow_sub_one_eq_mod (m % 256) 5
  change (ctrl1 m p s e &&& 0x1F#8).toNat = m
  rw [ctrl1_and_lengthMask, hmask]
  omega

/-- R72: a length below 32 has none of the bits 5 to 7. -/
theorem length_high_bit {m i : Nat} (h : m < 32) (hlow : 5 ≤ i) (hi : i < 8) : (BitVec.ofNat 8 m)[i] = false := by
  have hm : m < 2 ^ i := h.trans_le (Nat.pow_le_pow_right (n := 2) (by decide) hlow)
  rw [BitVec.getElem_eq_testBit_toNat, BitVec.toNat_ofNat, Nat.mod_eq_of_lt (by omega)]
  exact Nat.testBit_lt_two_pow hm

theorem ctrl1Protocol_ctrl1 {m : Nat} (h : m < 32) (p s e : BitVec 1) : ctrl1Protocol (ctrl1 m p s e) = p := by
  ext i hi
  obtain rfl : i = 0 := by omega
  simp [ctrl1Protocol, ctrl1, length_high_bit h]

theorem ctrl1StartFrame_ctrl1 {m : Nat} (h : m < 32) (p s e : BitVec 1) : ctrl1StartFrame (ctrl1 m p s e) = s := by
  ext i hi
  obtain rfl : i = 0 := by omega
  simp [ctrl1StartFrame, ctrl1, length_high_bit h]

theorem ctrl1EndFrame_ctrl1 {m : Nat} (h : m < 32) (p s e : BitVec 1) : ctrl1EndFrame (ctrl1 m p s e) = e := by
  ext i hi
  obtain rfl : i = 0 := by omega
  simp [ctrl1EndFrame, ctrl1, length_high_bit h]

/-- R72: byte 0 is `ctrl1`, with the number of bytes of the frame less three as its length. -/
theorem frameEnc_ctrl1 {f : Frame} {bytes : List Byte} (h : frameEnc f = .ok bytes) :
    bytes.getD 0 0 = ctrl1 (8 + f.payload.length) f.protocol f.startFrame f.endFrame := by
  obtain ⟨-, rfl⟩ := frameEnc_ok_iff.mp h
  rfl

/-- R167: the record that stands in an encoding's bytes is the record encoded. -/
theorem frameFields_of_frameEnc {f : Frame} {bytes : List Byte} (h : frameEnc f = .ok bytes) :
    frameFields bytes = f := by
  have hctrl := frameEnc_ctrl1 h
  have hcmd := frameEnc_cmd h
  have hlen := frameEnc_length h
  obtain ⟨hpayload, hbytes⟩ := frameEnc_ok_iff.mp h
  obtain ⟨a, b, c, hs⟩ := address_eq f.source
  obtain ⟨x, y, z, ht⟩ := address_eq f.target
  rw [preCrcBytes_eq hs ht] at hbytes
  have hctrl2 : bytes.getD 1 0 = f.ctrl2 := by rw [hbytes]; rfl
  have hsource : Bytes.slice bytes 2 3 = f.source := Bytes.eq_of_data (by rw [hbytes, hs]; rfl)
  have htarget : Bytes.slice bytes 5 3 = f.target := Bytes.eq_of_data (by rw [hbytes, ht]; rfl)
  have htail : (bytes.drop headerLen).take (bytes.length - 11) = f.payload := by
    rw [hlen, Nat.add_sub_cancel_left, hbytes]
    exact List.take_left
  have hm : 8 + f.payload.length < 32 := by omega
  simp only [frameFields, addrOrder, hctrl, ctrl1Protocol_ctrl1 hm, ctrl1StartFrame_ctrl1 hm, ctrl1EndFrame_ctrl1 hm,
    hctrl2, hsource, htarget, hcmd, htail]

/-- R169: decoding inverts encoding. -/
theorem frameDec_of_frameEnc {f : Frame} {bytes : List Byte} (h : frameEnc f = .ok bytes) : frameDec bytes = .ok f := by
  have hlen := frameEnc_length h
  have hcrc : crcGood bytes = true := by
    obtain ⟨-, rfl⟩ := frameEnc_ok_iff.mp h
    exact crcGood_append_crc _
  have hle := (frameEnc_ok_iff.mp h).1
  have hmsg : ctrl1MsgLen (bytes.getD 0 0) = bytes.length - 3 := by
    rw [frameEnc_ctrl1 h, ctrl1MsgLen_ctrl1 (by omega)]
    omega
  rw [frameDec, if_neg (by omega), if_neg (by simp [hcrc]), if_neg (by rw [payloadMax]; omega),
    if_neg (not_not_intro hmsg), frameFields_of_frameEnc h]

/-! ### The wire commands -/

/-- R90: the code of a command that the host sends is its frame's command byte. -/
theorem encode_head_of_sentFrame {i : Instr} {f : Frame} {o : SendOpts} (h : sentFrame i = some (f, o)) :
    (encode i).head? = some f.cmd := by
  cases i
  case cmd30 _ _ _ p | cmd38 _ _ p | cmd3C _ _ p | cmd3D _ _ p => cases p <;> cases h; rfl
  all_goals cases h <;> rfl

/-- R90: the code of a command that a peer sends is its frame's command byte. -/
theorem encode_head_of_arrivingFrame {i : Instr} {f : Frame} (h : arrivingFrame i = some f) :
    (encode i).head? = some f.cmd := by
  cases i
  case cmd30 _ _ _ p | cmd38 _ _ p | cmd3C _ _ p | cmd3D _ _ p => cases p <;> cases h; rfl
  all_goals cases h <;> rfl

/-- R90: a wire command is sent or arrives, never both. -/
theorem wireCmd_passage {i : Instr} (h : i.format = .wireCmd) :
    (∃ f o, sentFrame i = some (f, o) ∧ arrivingFrame i = none) ∨
    ∃ f, sentFrame i = none ∧ arrivingFrame i = some f := by
  cases i
  case cmd30 _ _ _ p | cmd38 _ _ p | cmd3C _ _ p | cmd3D _ _ p =>
    cases p with
    | send o => exact .inl ⟨_, o, rfl, rfl⟩
    | receive => exact .inr ⟨_, rfl, rfl⟩
  case cmd00 | cmd03 | cmd28 | cmd2A | cmd2C | cmd2E | cmd31 | cmd32 | cmd36 | cmd50 | cmd54 | cmd56 =>
    exact .inl ⟨_, _, rfl, rfl⟩
  case cmd04 | cmd29 | cmd2D | cmd2F | cmd33 | cmd37 | cmd51 | cmd55 | cmd57 | cmdFE =>
    exact .inr ⟨_, rfl, rfl⟩
  all_goals cases h

/-- R198: an instruction is taken for an arriving frame exactly when it has one. -/
theorem arrives_eq_isSome (i : Instr) : arrives i = (arrivingFrame i).isSome := by
  cases i
  case cmd30 _ _ _ p | cmd38 _ _ p | cmd3C _ _ p | cmd3D _ _ p => cases p <;> rfl
  all_goals rfl

/-- R183: with the gates open and an encoding, SEND appends the entry. -/
theorem sendFrame_of_accepts {f : Frame} {bytes : List Byte} {o : SendOpts} {s : State} (hradio : s.radioState = .rx)
    (hroom : s.txQueue.length ≠ Config.txqDepth) (henc : frameEnc f = .ok bytes) :
    sendFrame f o s = (s.enqueue (newEntry s.now f bytes o)).finish .accepted := by
  simp [sendFrame, hradio, hroom, henc]

/-- R198: a peer's frame is the reception of its bytes. -/
theorem receiveFrame_of_frameEnc {f : Frame} {bytes : List Byte} (h : frameEnc f = .ok bytes) (s : State) :
    receiveFrame f s = rxFrame bytes s := by
  simp only [receiveFrame, h]

/-- R75: a record with no encoding changes nothing. -/
theorem receiveFrame_of_gt {f : Frame} (h : 21 < f.payload.length) (s : State) : receiveFrame f s = s := by
  simp only [receiveFrame, frameEnc_of_gt h]

/-- R198, R169: a callback that is free is handed the record that the peer sent. -/
theorem receiveFrame_enters {f : Frame} {s : State} {cb : Nat} (hcb : s.rxCallback = some cb)
    (hradio : s.radioState = .rx) (hidle : s.running = none) (hlen : f.payload.length ≤ 21) :
    receiveFrame f s = s.enterCallback cb f := by
  have henc := frameEnc_of_le hlen
  rw [receiveFrame_of_frameEnc henc]
  simp [rxFrame, hradio, hidle, frameDec_of_frameEnc henc, hcb]

/-- R198: with no callback, out of `RX`, while the callback runs, or with no encoding, a peer's frame is dropped. -/
theorem receiveFrame_drops {f : Frame} {s : State}
    (h : s.rxCallback = none ∨ s.radioState ≠ .rx ∨ s.running.isSome = true ∨ 21 < f.payload.length) :
    receiveFrame f s = s := by
  obtain hs | ⟨hradio, hidle, g, cb, hcb, -⟩ := receiveFrame_cases f s
  · exact hs
  · obtain hnone | hne | hruns | hlong := h
    · cases hnone.symm.trans hcb
    · exact absurd hradio hne
    · simp [hidle] at hruns
    · exact receiveFrame_of_gt hlong s

/-- R165: the bytes that FRAME_ENC answers are the record's encoding. -/
theorem frameEnc_of_exec {f : Frame} {bytes : List Byte} {s : State}
    (h : exec (.frameEnc f) s = .next { s with result := some (.encoded bytes) }) : frameEnc f = .ok bytes := by
  have hresult : (encodeFrame f s).result = some (.encoded bytes) :=
    congrArg State.result (Host.Outcome.next.inj h)
  obtain ⟨out, henc, hs⟩ | ⟨e, -, hs⟩ := encodeFrame_cases f s
  · rw [hs] at hresult
    cases hresult
    exact henc
  · rw [hs] at hresult
    cases hresult

/-- Settles O34: SEND of the catalog's frame, whose encoding the open gates let into the queue. -/
theorem sentCommandsQueueTheirFrame : Obligations.SentCommandsQueueTheirFrame := by
  intro i f o s h
  refine ⟨exec_of_sentFrame h s, encode_head_of_sentFrame h, fun hradio hroom hlen => ?_⟩
  have henc := frameEnc_of_le hlen
  refine ⟨_, ?_, frameEnc_cmd henc, frameEnc_length henc⟩
  rw [exec_of_sentFrame h s, sendFrame_of_accepts hradio hroom henc]
  rfl

/-- Settles O35: reception of the catalog's frame, which the decoder reads back, or its drop. -/
theorem arrivingCommandsReachTheCallback : Obligations.ArrivingCommandsReachTheCallback := by
  intro i f s h
  refine ⟨encode_head_of_arrivingFrame h, fun hdrop => ?_, fun cb hcb hradio hidle hlen => ?_⟩
  · rw [exec_of_arrivingFrame h s, receiveFrame_drops hdrop]
  · rw [exec_of_arrivingFrame h s, receiveFrame_enters hcb hradio hidle hlen]
    rfl

/-- Settles O36: sent or arriving by the catalog, and each is what exec does. -/
theorem everyCommandIsSentOrArrives : Obligations.EveryCommandIsSentOrArrives := by
  refine fun i => ⟨arrives_eq_isSome i, fun hformat => ?_⟩
  obtain ⟨f, o, hsent, hnone⟩ | ⟨f, hnone, harrives⟩ := wireCmd_passage hformat
  · exact .inl ⟨f, o, hsent, hnone, exec_of_sentFrame hsent⟩
  · refine .inr ⟨f, hnone, harrives, fun s bytes hexec => ?_⟩
    rw [exec_of_arrivingFrame harrives s, receiveFrame_of_frameEnc (frameEnc_of_exec hexec) s]
    rfl

end Sys2Proof.Machine
end

section
/-! PROOFS of the family 40_checksum_iv.md: the step as a feedback register, the checksum of a string, and the bytes of the
two initial values. -/

namespace Sys2Proof.Machine

open Sys2Proof.Claims

/-! ### The checksum step -/

/-- R101, R102: the high byte of the shifted register, which takes in the bit that leaves the low byte. -/
theorem extract_high_of_shift (byte s1 s2 : Byte) :
    (((s1.zeroExtend 16 <<< 8 ||| s2.zeroExtend 16 : Half) ^^^ byte.zeroExtend 16) <<< 1).extractLsb' 8 8 =
      (s1 &&& 0x7F) <<< 1 ||| (byte ^^^ s2) >>> 7 := by
  have hmask : ∀ j < 7, (0x7F#8).getLsbD j = true := by decide
  ext i hi
  cases i with
  | zero => simp [Bool.xor_comm]
  | succ j =>
    have hj : (0x7F#8)[j] = true := hmask j (by omega)
    have hbound : 8 + (j + 1) < 16 ∧ 8 + j < 16 ∧ j < 16 ∧ j < 8 := by omega
    simp [show 7 + (j + 1) = 8 + j by omega, hj, hbound]

/-- R101, R102: the low byte of the shifted register, the input byte XORed into it before the shift. -/
theorem extract_low_of_shift (byte s1 s2 : Byte) :
    (((s1.zeroExtend 16 <<< 8 ||| s2.zeroExtend 16 : Half) ^^^ byte.zeroExtend 16) <<< 1).extractLsb' 0 8 =
      (byte ^^^ s2) <<< 1 := by
  ext i hi
  cases i with
  | zero => simp
  | succ j =>
    have hbound : j + 1 < 16 ∧ j < 16 ∧ j < 8 := by omega
    simp [hbound, Bool.xor_comm]

/-- R101, R102: the mask of the step tests the bit that leaves the register. -/
theorem and_0x80_ne_zero_iff (s1 s2 : Byte) :
    s1 &&& 0x80 ≠ 0 ↔ (s1.zeroExtend 16 <<< 8 ||| s2.zeroExtend 16 : Half).getLsbD 15 = true := by
  have htop : ∀ b : Byte, b &&& 0x80 ≠ 0 ↔ b.getLsbD 7 = true := by decide
  rw [htop]
  simp

/-- R102: the step answers the two bytes of the register. -/
theorem cksStep_eq_register (byte s1 s2 : Byte) : cksStep byte s1 s2 =
    ((checksumRegister byte s1 s2).extractLsb' 8 8, (checksumRegister byte s1 s2).extractLsb' 0 8) := by
  have hk1 : (0x555B : Half).extractLsb' 8 8 = cksK1 := rfl
  have hk2 : (0x555B : Half).extractLsb' 0 8 = cksK2 := rfl
  simp only [cksStep, checksumRegister, BitVec.extractLsb'_xor, extract_high_of_shift, extract_low_of_shift,
    and_0x80_ne_zero_iff s1 s2]
  split
  · rw [hk1, hk2]
  · simp

/-- CKS_STEP answers the step's pair. -/
theorem exec_cksStep (byte s1 s2 : Byte) (s : State) : exec (.cksStep byte s1 s2) s =
    .next (s.finish (.checksum (cksStep byte s1 s2).1 (cksStep byte s1 s2).2)) := rfl

/-- Settles O10: the pair of the step is the two bytes of the register. -/
theorem cksStepIsTheFeedbackRegister : Obligations.CksStepIsTheFeedbackRegister := by
  intro byte s1 s2 s
  refine ⟨rfl, ?_⟩
  rw [exec_cksStep, cksStep_eq_register]
  rfl

/-! ### The checksum of a string -/

/-- CKS answers the pair of the whole string. -/
theorem exec_cks (d : List Byte) (s : State) :
    exec (.cks d) s = .next (s.finish (.checksum (cks d).1 (cks d).2)) := rfl

/-- R104: a byte at the end of a string is one more step. -/
theorem cks_concat (d : List Byte) (b : Byte) : cks (d ++ [b]) = cksStep b (cks d).1 (cks d).2 :=
  List.foldl_concat ..

/-- Settles O11: the pairs are those of the string and of the step that follows it. -/
theorem cksFoldsTheSteps : Obligations.CksFoldsTheSteps := by
  refine ⟨fun s => exec_cks [] s, fun d b s => ?_⟩
  refine ⟨_, _, _, _, exec_cks d s, exec_cksStep b _ _ s, ?_⟩
  rw [exec_cks, cks_concat]
  rfl

/-- R101: a zero byte on the start value answers the start value. -/
theorem cksStep_zero : cksStep 0 0 0 = (0, 0) := by decide

/-- R101: a zero byte in front of a string leaves its checksum. -/
theorem cks_zero_cons (d : List Byte) : cks (0 :: d) = cks d := by
  rw [cks, List.foldl_cons, cksStep_zero, cks]

theorem cks_replicate_zero_append (n : Nat) (d : List Byte) : cks (List.replicate n 0 ++ d) = cks d := by
  induction n with
  | zero => rfl
  | succ n ih => rw [List.replicate_succ, List.cons_append, cks_zero_cons, ih]

/-- Settles O12, one leading zero at a time. -/
theorem leadingZerosLeaveTheChecksum : Obligations.LeadingZerosLeaveTheChecksum := by
  intro n d s
  rw [exec_cks, exec_cks, cks_replicate_zero_append]

/-! ### The initial values -/

section

variable {d tail : List Byte} {iv : Bytes 16} (h : iv.data = ivPrefix d ++ ivChecksum d ++ tail)
include h

/-- R78: bytes 0 to 7 are the string's first eight, or the padding where it has none. -/
theorem iv_get_prefix {i : Nat} (hi : i < 8) : iv.get i = if i < d.length then d.getD i 0x00 else 0x55 := by
  have hprefix : iv.get i = d.getD i ivPad := by
    rw [Bytes.get, h, List.append_assoc, List.getD_append _ _ _ _ (by simpa [ivPrefix] using hi)]
    simp [ivPrefix, hi]
  rw [hprefix]
  split
  · next hlt => simp [hlt]
  · next hge => simp [hge, ivPad]

/-- R78: byte 8 is the first byte of the checksum. -/
theorem iv_get_eight : iv.get 8 = (cks d).1 := by
  rw [Bytes.get, h]
  rfl

/-- R78: byte 9 is the second byte of the checksum. -/
theorem iv_get_nine : iv.get 9 = (cks d).2 := by
  rw [Bytes.get, h]
  rfl

/-- R78, R79: what stands from byte 10 on. -/
theorem iv_get_tail (i : Nat) : iv.get (10 + i) = tail.getD i 0 := by
  have hlen : (ivPrefix d ++ ivChecksum d).length = 10 := rfl
  rw [Bytes.get, h, List.getD_append_right _ _ _ _ (by omega), hlen, Nat.add_sub_cancel_left]

end

/-- Settles O13: the prefix and the checksum, then the challenge. -/
theorem iv2wLayout : Obligations.Iv2wLayout := by
  intro d c s
  have h : (iv2w d c).data = ivPrefix d ++ ivChecksum d ++ c.data := rfl
  exact ⟨iv2w d c, _, _, rfl, exec_cks d s, rfl, fun _ => iv_get_prefix h, iv_get_eight h, iv_get_nine h,
    fun i _ => iv_get_tail h i⟩

/-- Settles O14: the prefix and the checksum, then the sequence and the padding. -/
theorem iv1wLayout : Obligations.Iv1wLayout := by
  intro d q s
  have h : (iv1w d q).data = ivPrefix d ++ ivChecksum d ++ (q.data ++ List.replicate 4 ivPad) := by
    simp [iv1w]
  refine ⟨iv1w d q, _, _, rfl, exec_cks d s, rfl, fun _ => iv_get_prefix h, iv_get_eight h, iv_get_nine h, ?_, ?_, ?_⟩
  · exact (iv_get_tail h 0).trans (List.getD_append _ _ _ _ (by simp [q.size]))
  · exact (iv_get_tail h 1).trans (List.getD_append _ _ _ _ (by simp [q.size]))
  · intro i hi
    have hsize : q.data.length ≤ 2 + i := by simp [q.size]
    rw [show 12 + i = 10 + (2 + i) by omega, iv_get_tail h, List.getD_append_right _ _ _ _ hsize, q.size,
      Nat.add_sub_cancel_left, List.getD_replicate _ hi, ivPad]

end Sys2Proof.Machine
end

section
/-! PROOFS of the family 41_aes.md: the S-box as the affine image of the inverse, the key schedule word by word, and the
cipher in matrix form. -/

namespace Sys2Proof.Machine

open Sys2Proof.Claims

/-! ### The field and the S-box -/

/-- R121: the mask and the bit are one test. -/
theorem timesX_eq_xtime (a : Byte) : timesX a = xtime a := by
  have htop : a &&& 0x80 ≠ 0 ↔ a.getLsbD 7 = true := (and_0x80_ne_zero_iff a 0).trans (by simp)
  simp only [timesX, xtime, htop]
  split <;> simp

theorem product_two (a : Byte) : product a 0x02 = mul2 a :=
  calc product a 0x02 = 0#8 ^^^ timesX a := rfl
    _ = mul2 a := by rw [BitVec.zero_xor, timesX_eq_xtime, mul2]

theorem product_three (a : Byte) : product a 0x03 = mul3 a :=
  calc product a 0x03 = 0#8 ^^^ a ^^^ timesX a := rfl
    _ = mul3 a := by rw [BitVec.zero_xor, timesX_eq_xtime, mul3, BitVec.xor_comm]

/-- R122: the affine map of the S-box. -/
def affine (b : Byte) : Byte :=
  b ^^^ b.rotateLeft 1 ^^^ b.rotateLeft 2 ^^^ b.rotateLeft 3 ^^^ b.rotateLeft 4 ^^^ 0x63

/-- The affine map read backwards: a table entry determines the inverse that it was made from. -/
def unaffine (a : Byte) : Byte := a.rotateLeft 1 ^^^ a.rotateLeft 3 ^^^ a.rotateLeft 6 ^^^ 0x05

theorem affine_unaffine : ∀ a : Byte, affine (unaffine a) = a := by decide

theorem unaffine_sbox_zero : unaffine (sbox 0x00) = 0x00 := by decide

/-- R121, R122: what stands under an entry of the table is the multiplicative inverse, by evaluation of the table. -/
theorem product_unaffine_sbox : ∀ a : Byte, a ≠ 0x00 → product a (unaffine (sbox a)) = 0x01 := by decide

/-- Settles O15: the inverse is read off the table entry through the affine map. -/
theorem sboxIsTheAffineInverse : Obligations.SboxIsTheAffineInverse := by
  intro a
  refine ⟨unaffine (sbox a), ?_, product_unaffine_sbox a, (affine_unaffine (sbox a)).symm⟩
  rintro rfl
  exact unaffine_sbox_zero

/-! ### The words of the key schedule -/

/-- R126: byte `j` of a word; zero for a byte that a word does not have. -/
def KeyWord.byte (t : KeyWord) (j : Nat) : Byte := t.bytes.getD j 0

theorem KeyWord.byte_xor (u v : KeyWord) : ∀ j, (u.xor v).byte j = u.byte j ^^^ v.byte j
  | 0 | 1 | 2 | 3 => rfl
  | _ + 4 => (BitVec.xor_self (x := 0#8)).symm

theorem rcon_getD : ∀ j < 10, rcon.getD j 0 = timesX^[j] 0x01 := by decide

/-- R126: RotWord, SubWord and the round constant on every fourth word, byte by byte. -/
theorem byte_scheduleTerm (t : KeyWord) (i : Nat) : ∀ j < 4, (scheduleTerm t i).byte j =
    if i % 4 = 0 then sbox (t.byte ((j + 1) % 4)) ^^^ (if j = 0 then rcon.getD (i / 4 - 1) 0 else 0x00)
    else t.byte j := by
  intro j hj
  by_cases hi : i % 4 = 0
  · simp only [scheduleTerm, hi, if_true]
    match j, hj with
    | 0, _ => rfl
    | 1, _ | 2, _ | 3, _ => exact (BitVec.xor_zero).symm
  · simp only [scheduleTerm, hi, if_false]

theorem schedule_length (key : Bytes 16) (n : Nat) : (schedule key n).length = 4 + n := by
  induction n with
  | zero => rfl
  | succ n ih => rw [schedule, List.length_append, ih]; rfl

/-- R126: a word stays as the schedule grows. -/
theorem wordAt_schedule_of_le (key : Bytes 16) {i n m : Nat} (hi : i < 4 + n) (hnm : n ≤ m) :
    wordAt (schedule key m) i = wordAt (schedule key n) i := by
  induction m, hnm using Nat.le_induction with
  | base => rfl
  | succ m hnm ih =>
    rw [← ih, schedule]
    exact List.getD_append _ _ _ _ (by rw [schedule_length]; omega)

/-- R126: the recurrence, between words of one schedule. -/
theorem wordAt_schedule_add_four (key : Bytes 16) {n m : Nat} (hnm : n < m) :
    wordAt (schedule key m) (n + 4) =
      (wordAt (schedule key m) n).xor (scheduleTerm (wordAt (schedule key m) (n + 3)) (n + 4)) := by
  have hnew : wordAt (schedule key (n + 1)) (n + 4) =
      (wordAt (schedule key n) n).xor (scheduleTerm (wordAt (schedule key n) (n + 3)) (n + 4)) := by
    rw [schedule, wordAt, List.getD_append_right _ _ _ _ (by rw [schedule_length]; omega), schedule_length,
      show n + 4 - (4 + n) = 0 by omega, List.getD_cons_zero]
  rw [wordAt_schedule_of_le key (n := n + 1) (by omega) hnm, hnew,
    wordAt_schedule_of_le key (n := n) (i := n) (by omega) hnm.le,
    wordAt_schedule_of_le key (n := n) (i := n + 3) (by omega) hnm.le]

/-- R126: the first four words are the key. -/
theorem byte_wordAt_keyWords (key : Bytes 16) :
    ∀ i < 4, ∀ j < 4, (wordAt (keyWords key) i).byte j = key.get (4 * i + j) := by
  intro i hi j hj
  have hword : wordAt (keyWords key) i =
      ⟨key.get (4 * i), key.get (4 * i + 1), key.get (4 * i + 2), key.get (4 * i + 3)⟩ := by
    simp [wordAt, keyWords, hi]
  rw [hword]
  match j, hj with
  | 0, _ | 1, _ | 2, _ | 3, _ => rfl

/-- R126: byte `j` of word `i` of the 44 words that the cipher uses. -/
def scheduleByte (key : Bytes 16) (i : Nat) : Nat → Byte := (wordAt (schedule key 40) i).byte

/-- R126: the words that the cipher uses are the key schedule. -/
theorem scheduleByte_isKeySchedule (key : Bytes 16) : IsKeySchedule sbox key (scheduleByte key) := by
  refine ⟨fun i hi j hj => ?_, fun i h4 h44 j hj => ?_⟩
  · rw [scheduleByte, wordAt_schedule_of_le key (n := 0) hi (Nat.zero_le _)]
    exact byte_wordAt_keyWords key i hi j hj
  · obtain ⟨n, rfl⟩ := Nat.exists_eq_add_of_le' h4
    have hconstant := rcon_getD ((n + 4) / 4 - 1) (by omega)
    rw [scheduleByte, wordAt_schedule_add_four key (by omega), KeyWord.byte_xor, byte_scheduleTerm _ _ j hj, hconstant]
    rfl

/-! ### The matrix state -/

/-- R120: row `r`, column `c` of a state that stands in input order. -/
def cell (s : List Byte) (r c : Nat) : Byte := s.getD (r + 4 * c) 0

theorem cell_cons_succ (a0 a1 a2 a3 : Byte) (s : List Byte) (r c : Nat) :
    cell (a0 :: a1 :: a2 :: a3 :: s) r (c + 1) = cell s r c := rfl

theorem index_lt {r c : Nat} (hr : r < 4) (hc : c < 4) : r + 4 * c < 16 := by omega

/-- R127. -/
theorem cell_addRoundKey {s k : List Byte} (hs : s.length = 16) (hk : k.length = 16) {r c : Nat} (hr : r < 4)
    (hc : c < 4) : cell (addRoundKey s k) r c = cell s r c ^^^ cell k r c := by
  simp [cell, addRoundKey, hs, hk, index_lt hr hc]

/-- R126: the columns of a round key are words of the schedule. -/
theorem cell_roundKey (ws : List KeyWord) (n : Nat) {r c : Nat} (hr : r < 4) (hc : c < 4) :
    cell (roundKey ws n) r c = (wordAt ws (4 * n + c)).byte r := by
  match c, hc, r, hr with
  | 0, _, 0, _ | 0, _, 1, _ | 0, _, 2, _ | 0, _, 3, _ => rfl
  | 1, _, 0, _ | 1, _, 1, _ | 1, _, 2, _ | 1, _, 3, _ => rfl
  | 2, _, 0, _ | 2, _, 1, _ | 2, _, 2, _ | 2, _, 3, _ => rfl
  | 3, _, 0, _ | 3, _, 1, _ | 3, _, 2, _ | 3, _, 3, _ => rfl

/-- R124: the list of sources is the rotation of row `r` by `r` columns. -/
theorem shiftRowsSource_getD : ∀ r < 4, ∀ c < 4, shiftRowsSource.getD (r + 4 * c) 0 = r + 4 * ((c + r) % 4) := by
  decide

/-- R123, R124. -/
theorem cell_shiftRows_subBytes {s : List Byte} (hs : s.length = 16) {r c : Nat} (hr : r < 4) (hc : c < 4) :
    cell (shiftRows (subBytes s)) r c = shifted sbox (cell s) r c := by
  have hsource := shiftRowsSource_getD r hr c hc
  have hlen : shiftRowsSource.length = 16 := rfl
  have hi := index_lt hr hc
  have hj := index_lt hr (Nat.mod_lt (c + r) (by decide : 4 > 0))
  rw [List.getD_eq_getElem _ _ (hlen ▸ hi)] at hsource
  simp [cell, shiftRows, subBytes, shifted, hsource, hlen, hs, hi, hj]

/-- R125: the column of a state at its front, with the general product. -/
theorem cell_mixColumn (a0 a1 a2 a3 : Byte) (s t : List Byte) {r : Nat} (hr : r < 4) :
    cell (mixColumn a0 a1 a2 a3 ++ t) r 0 =
      product (cell (a0 :: a1 :: a2 :: a3 :: s) r 0) 0x02 ^^^
        product (cell (a0 :: a1 :: a2 :: a3 :: s) ((r + 1) % 4) 0) 0x03 ^^^
        cell (a0 :: a1 :: a2 :: a3 :: s) ((r + 2) % 4) 0 ^^^ cell (a0 :: a1 :: a2 :: a3 :: s) ((r + 3) % 4) 0 := by
  rw [product_two, product_three]
  match r, hr with
  | 0, _ => rfl
  | 1, _ => show a0 ^^^ mul2 a1 ^^^ mul3 a2 ^^^ a3 = mul2 a1 ^^^ mul3 a2 ^^^ a3 ^^^ a0; ac_rfl
  | 2, _ => show a0 ^^^ a1 ^^^ mul2 a2 ^^^ mul3 a3 = mul2 a2 ^^^ mul3 a3 ^^^ a0 ^^^ a1; ac_rfl
  | 3, _ => show mul3 a0 ^^^ a1 ^^^ a2 ^^^ mul2 a3 = mul2 a3 ^^^ mul3 a0 ^^^ a1 ^^^ a2; ac_rfl

/-- R125: MixColumns is the matrix product, column by column. -/
theorem cell_mixColumns {r : Nat} (hr : r < 4) : ∀ (s : List Byte) (c : Nat), 4 * c + 4 ≤ s.length →
    cell (mixColumns s) r c =
      product (cell s r c) 0x02 ^^^ product (cell s ((r + 1) % 4) c) 0x03 ^^^ cell s ((r + 2) % 4) c ^^^
        cell s ((r + 3) % 4) c
  | a0 :: a1 :: a2 :: a3 :: s, 0, _ => cell_mixColumn a0 a1 a2 a3 s (mixColumns s) hr
  | a0 :: a1 :: a2 :: a3 :: s, c + 1, h => by
    simp only [cell_cons_succ]
    exact cell_mixColumns hr s c (by simp only [List.length_cons] at h; omega)

/-- R123, R124, R125: a full round before its key. -/
theorem cell_mixColumns_shiftRows_subBytes {s : List Byte} (hs : s.length = 16) {r c : Nat} (hr : r < 4) (hc : c < 4) :
    cell (mixColumns (shiftRows (subBytes s))) r c = mixed sbox (cell s) r c := by
  have hlen : (shiftRows (subBytes s)).length = 16 := rfl
  have hrow : ∀ d, (r + d) % 4 < 4 := fun d => Nat.mod_lt _ (by decide)
  rw [cell_mixColumns hr _ _ (by omega), cell_shiftRows_subBytes hs hr hc, cell_shiftRows_subBytes hs (hrow 1) hc,
    cell_shiftRows_subBytes hs (hrow 2) hc, cell_shiftRows_subBytes hs (hrow 3) hc, mixed]

/-! ### The cipher -/

theorem addRoundKey_length {s k : List Byte} (hs : s.length = 16) (hk : k.length = 16) :
    (addRoundKey s k).length = 16 := by
  rw [addRoundKey, List.length_zipWith, hs, hk, Nat.min_self]

theorem roundKey_length (ws : List KeyWord) (n : Nat) : (roundKey ws n).length = 16 := rfl

theorem rounds_length (ws : List KeyWord) {block : List Byte} (hblock : block.length = 16) :
    ∀ n, (rounds ws block n).length = 16
  | 0 => addRoundKey_length hblock rfl
  | _ + 1 => addRoundKey_length rfl rfl

/-- R120, R130: the matrix state of the model after round `n`. -/
def cipherState (key block : Bytes 16) (n : Nat) : Nat → Nat → Byte :=
  cell (rounds (schedule key 40) block.data n)

/-- R130: the states after each round are a run of the cipher that ends in its answer. -/
theorem cipherState_isCipherRun (key block : Bytes 16) :
    IsCipherRun sbox (scheduleByte key) block (cipherState key block) (aes key block) := by
  have hlen := rounds_length (schedule key 40) block.size
  refine ⟨fun r hr c hc => ?_, fun n _ r hr c hc => ?_, fun r hr c hc => ?_⟩
  · rw [cipherState, rounds, cell_addRoundKey block.size rfl hr hc, cell_roundKey _ _ hr hc, Nat.mul_zero,
      Nat.zero_add]
    rfl
  · rw [cipherState, rounds, cell_addRoundKey rfl rfl hr hc, cell_roundKey _ _ hr hc,
      cell_mixColumns_shiftRows_subBytes (hlen n) hr hc]
    rfl
  · show cell (aesBytes key block.data) r c = _
    rw [aesBytes, cell_addRoundKey rfl rfl hr hc, cell_roundKey _ _ hr hc, cell_shiftRows_subBytes (hlen 9) hr hc]
    rfl

/-- AES_ENC answers the sixteen bytes of the encryption. -/
theorem exec_aesEnc (key block : Bytes 16) (s : State) :
    exec (.aesEnc key block) s = .next (s.finish (.block (aes key block))) := rfl

/-- Settles O16: the table, the schedule and the states of the model are those of the rules. -/
theorem aesIsTheCipherOfTheRules : Obligations.AesIsTheCipherOfTheRules := fun key block s =>
  ⟨sbox, _, _, aes key block, rfl, sboxIsTheAffineInverse, scheduleByte_isKeySchedule key,
    cipherState_isCipherRun key block, exec_aesEnc key block s⟩

end Sys2Proof.Machine
end

section
/-! PROOFS of the family 42_keywrap.md: each wrap XORs one key stream onto the key, so that a second wrap takes it off
again and the stream cancels between two wraps. -/

namespace Sys2Proof

/-- Two strings under one key stream differ as they do without it. -/
theorem Bytes.get_xor_xor_get_xor {n : Nat} (ks a b : Bytes n) (i : Nat) (h : i < n) :
    (ks.xor a).get i ^^^ (ks.xor b).get i = a.get i ^^^ b.get i := by
  rw [Bytes.get_xor _ _ _ h, Bytes.get_xor _ _ _ h]
  calc (ks.get i ^^^ a.get i) ^^^ (ks.get i ^^^ b.get i)
      = (ks.get i ^^^ ks.get i) ^^^ (a.get i ^^^ b.get i) := by ac_rfl
    _ = a.get i ^^^ b.get i := by rw [BitVec.xor_self, BitVec.zero_xor]

end Sys2Proof

namespace Sys2Proof.Machine

/-! ### The 2W wrap -/

/-- WRAP2W answers the wrapped key. -/
theorem exec_wrap2w (k : Bytes 16) (c : Bytes 6) (d : List Byte) (s : State) :
    exec (.wrap2w k c d) s = .next (s.finish (.block (wrap2w k c d))) := rfl

/-- R141: UNWRAP2W does what WRAP2W does. -/
theorem exec_unwrap2w (w : Bytes 16) (c : Bytes 6) (d : List Byte) (s : State) :
    exec (.unwrap2w w c d) s = exec (.wrap2w w c d) s := rfl

/-- R141: the second wrap takes the key stream off again. -/
theorem wrap2w_wrap2w (k : Bytes 16) (c : Bytes 6) (d : List Byte) : wrap2w (wrap2w k c d) c d = k :=
  Bytes.xor_xor _ k

/-- R141: WRAP2W of the wrapped key answers the key. -/
theorem exec_wrap2w_wrap2w (k : Bytes 16) (c : Bytes 6) (d : List Byte) (s : State) :
    exec (.wrap2w (wrap2w k c d) c d) s = .next (s.finish (.block k)) := by
  rw [exec_wrap2w, wrap2w_wrap2w]

/-- Settles O18: both are the second wrap. -/
theorem wrap2wIsItsOwnInverse : Obligations.Wrap2wIsItsOwnInverse := fun k c d s =>
  ⟨wrap2w k c d, exec_wrap2w k c d s, exec_wrap2w_wrap2w k c d s,
    (exec_unwrap2w _ c d s).trans (exec_wrap2w_wrap2w k c d s), rfl⟩

/-- Settles O19: the challenge and the string fix the key stream, which cancels. -/
theorem wrapsOfTwoKeysDifferAsTheKeys : Obligations.WrapsOfTwoKeysDifferAsTheKeys := fun k1 k2 c d s =>
  ⟨_, _, exec_wrap2w k1 c d s, exec_wrap2w k2 c d s, Bytes.get_xor_xor_get_xor _ k1 k2⟩

/-- IV2W answers the 2W initial value. -/
theorem exec_iv2w (d : List Byte) (c : Bytes 6) (s : State) :
    exec (.iv2w d c) s = .next (s.finish (.block (iv2w d c))) := rfl

/-- Settles O17: the key stream is the encryption of the 2W initial value under the transfer key. -/
theorem wrap2wXorsTheKeyStream : Obligations.Wrap2wXorsTheKeyStream := fun k c d s =>
  ⟨_, _, _, rfl, exec_iv2w d c s, exec_aesEnc transferKey (iv2w d c) s, exec_wrap2w k c d s, wrap2w_get k c d⟩

/-! ### The 1W wrap -/

/-- WRAP1W answers the wrapped key, which its caller's storage then holds. -/
theorem exec_wrap1w (a : Bytes 3) (k : Bytes 16) (s : State) :
    exec (.wrap1w a k) s = .next ((s.storeCallerKey (wrap1w a k)).finish (.block (wrap1w a k))) := rfl

/-- R147: UNWRAP1W does what WRAP1W does. -/
theorem exec_unwrap1w (a : Bytes 3) (w : Bytes 16) (s : State) :
    exec (.unwrap1w a w) s = exec (.wrap1w a w) s := rfl

/-- R147: the second wrap takes the key stream off again. -/
theorem wrap1w_wrap1w (a : Bytes 3) (k : Bytes 16) : wrap1w a (wrap1w a k) = k :=
  Bytes.xor_xor _ k

/-- R147: WRAP1W of the wrapped key answers the key and puts it back. -/
theorem exec_wrap1w_wrap1w (a : Bytes 3) (k : Bytes 16) (s : State) :
    exec (.wrap1w a (wrap1w a k)) s = .next ((s.storeCallerKey k).finish (.block k)) := by
  rw [exec_wrap1w, wrap1w_wrap1w]

/-- Settles O21: both are the second wrap, and the address fixes the key stream. -/
theorem wrap1wIsItsOwnInverse : Obligations.Wrap1wIsItsOwnInverse := fun a k k2 s =>
  ⟨wrap1w a k, wrap1w a k2, exec_wrap1w a k s, exec_wrap1w_wrap1w a k s,
    (exec_unwrap1w a _ s).trans (exec_wrap1w_wrap1w a k s), rfl, exec_wrap1w a k2 s,
    Bytes.get_xor_xor_get_xor _ k k2⟩

/-- R80: each byte of the address initial value is a byte of the address, which repeats. -/
theorem addressIv_get (a : Bytes 3) (i : Nat) (h : i < 16) : (addressIv a).get i = a.get (i % 3) := by
  rw [Bytes.get_eq_getElem _ _ h]
  simp [addressIv]

/-- Settles O20: the key stream is the encryption of the repeated address under the transfer key. -/
theorem wrap1wOverwritesTheKey : Obligations.Wrap1wOverwritesTheKey := fun a k s =>
  ⟨_, _, _, rfl, addressIv_get a, exec_aesEnc transferKey (addressIv a) s, exec_wrap1w a k s, wrap1w_get a k⟩

end Sys2Proof.Machine
end

section
/-! PROOFS of the family 43_mac.md: each MAC is the front of an encryption, which sees a string through its initial value
alone: through its first eight bytes and its checksum. -/

namespace Sys2Proof.Machine

/-! ### What a MAC sees of its string -/

/-- MAC2W answers the 2W MAC. -/
theorem exec_mac2w (c : Bytes 6) (k : Bytes 16) (d : List Byte) (s : State) :
    exec (.mac2w c k d) s = .next (s.finish (.mac (mac2w c k d))) := rfl

/-- Equal answers of CKS are equal checksums. -/
theorem cks_eq_of_exec {d1 d2 : List Byte} {s : State} (h : exec (.cks d1) s = exec (.cks d2) s) : cks d1 = cks d2 := by
  rw [exec_cks, exec_cks, Host.Outcome.next.injEq] at h
  have hresult := congrArg State.result h
  simp only [State.finish_result, Option.some.injEq, OpResult.checksum.injEq] at hresult
  obtain ⟨hfst, hsnd⟩ := hresult
  exact Prod.ext hfst hsnd

/-- R78: the prefix of an initial value sees the first eight bytes alone. -/
theorem ivPrefix_take (d : List Byte) : ivPrefix (d.take 8) = ivPrefix d := by
  refine List.map_congr_left fun i hi => ?_
  simp only [List.getD_eq_getElem?_getD, List.getElem?_take_of_lt (List.mem_range.mp hi)]

/-- R105, R151: the 2W initial value sees a string through its first eight bytes and its checksum. -/
theorem iv2w_congr {d1 d2 : List Byte} (c : Bytes 6) (htake : d1.take 8 = d2.take 8) (hcks : cks d1 = cks d2) :
    iv2w d1 c = iv2w d2 c := by
  have hprefix : ivPrefix d1 = ivPrefix d2 := by
    rw [← ivPrefix_take d1, htake, ivPrefix_take]
  apply Bytes.eq_of_data
  simp only [iv2w, ivChecksum, hprefix, hcks]

/-- Settles O24: the two strings have one initial value. -/
theorem macSeesTheTailThroughTheChecksum : Obligations.MacSeesTheTailThroughTheChecksum := by
  intro c k d1 d2 s htake hexec
  have hmac : mac2w c k d1 = mac2w c k d2 := by
    rw [mac2w, mac2w, iv2w_congr c htake (cks_eq_of_exec hexec)]
  refine ⟨mac2w c k d1, exec_mac2w c k d1 s, ?_⟩
  rw [exec_mac2w, hmac]
  rfl

/-! ### The bytes of the MACs -/

/-- Settles O22: the encryption is that of the 2W initial value. -/
theorem mac2wIsTheFirstSixBytes : Obligations.Mac2wIsTheFirstSixBytes := fun c k d s =>
  ⟨_, _, _, rfl, exec_iv2w d c s, exec_aesEnc k (iv2w d c) s, exec_mac2w c k d s, Bytes.get_first _ _⟩

/-- IV1W answers the 1W initial value. -/
theorem exec_iv1w (d : List Byte) (q : Bytes 2) (s : State) :
    exec (.iv1w d q) s = .next (s.finish (.block (iv1w d q))) := rfl

/-- MAC1W answers the 1W MAC. -/
theorem exec_mac1w (q : Bytes 2) (k : Bytes 16) (d : List Byte) (s : State) :
    exec (.mac1w q k d) s = .next (s.finish (.mac (mac1w q k d))) := rfl

/-- Settles O23: the encryption is that of the 1W initial value. -/
theorem mac1wIsTheFirstSixBytes : Obligations.Mac1wIsTheFirstSixBytes := fun q k d s =>
  ⟨_, _, _, rfl, exec_iv1w d q s, exec_aesEnc k (iv1w d q) s, exec_mac1w q k d s, Bytes.get_first _ _⟩

end Sys2Proof.Machine
end

section
/-! PROOFS of the family 44_crc_frame.md: the CRC register loses nothing as it shifts, so that a string's CRC is zero
exactly when its own CRC ends it, and one changed byte shows; and the bytes of a frame, read back and written again. -/

namespace Sys2Proof.Machine

open Sys2Proof.Claims

/-! ### The CRC register -/

/-- R160: the shift takes in the polynomial exactly when bit 0 leaves the register. -/
theorem crcShift_eq_xor (crc : Half) : crcShift crc = (crc >>> 1) ^^^ (if crc.getLsbD 0 then crcPoly else 0) := by
  have hbit : crc &&& 0x0001 = (BitVec.ofBool (crc.getLsbD 0)).zeroExtend 16 := by
    ext i hi
    cases i <;> simp
  rw [crcShift, hbit]
  cases crc.getLsbD 0
  · exact BitVec.xor_zero.symm
  · rfl

/-- R160: the shift is the rule's shift. -/
theorem crcShift_eq_crcStep (crc : Half) : crcShift crc = crcStep crc := by
  rw [crcShift_eq_xor, crcStep]
  split
  · rfl
  · exact BitVec.xor_zero

/-- R160: the polynomial's top bit shows in the shifted register which bit left it. -/
theorem crcShift_top_bit (crc : Half) : (crcShift crc).getLsbD 15 = crc.getLsbD 0 := by
  rw [crcShift_eq_xor]
  cases crc.getLsbD 0 <;> simp [crcPoly]

/-- R160: the shift loses nothing. -/
theorem crcShift_injective : Function.Injective crcShift := by
  intro a b h
  have hlow : a.getLsbD 0 = b.getLsbD 0 := by
    rw [← crcShift_top_bit a, h, crcShift_top_bit]
  have hrest : a >>> 1 = b >>> 1 := by
    rw [crcShift_eq_xor, crcShift_eq_xor, hlow] at h
    exact BitVec.xor_left_inj _ |>.mp h
  apply BitVec.eq_of_getLsbD_eq
  intro i hi
  cases i with
  | zero => exact hlow
  | succ j =>
    have hbit := congrArg (BitVec.getLsbD · j) hrest
    simpa [Nat.add_comm] using hbit

/-- R160: one byte is eight shifts of the register with the byte XORed into its low half. -/
theorem crcByte_eq_iterate (crc : Half) (b : Byte) : crcByte crc b = crcShift^[8] (crc ^^^ b.zeroExtend 16) := rfl

/-- R160: for one byte, two registers stay apart. -/
theorem crcByte_injective (b : Byte) : Function.Injective (crcByte · b) := fun _ _ h =>
  (BitVec.xor_left_inj _).mp (crcShift_injective.iterate 8 h)

/-- R160: into one register, two bytes give two registers. -/
theorem crcByte_byte_injective (crc : Half) : Function.Injective (crcByte crc) := by
  intro a b h
  have hxor : crc ^^^ a.zeroExtend 16 = crc ^^^ b.zeroExtend 16 := crcShift_injective.iterate 8 h
  have hext := (BitVec.xor_right_inj _).mp hxor
  simpa using congrArg (BitVec.truncate 8) hext

/-- R160: over one string, two registers stay apart. -/
theorem foldl_crcByte_injective (q : List Byte) : Function.Injective (q.foldl crcByte ·) := by
  induction q with
  | nil => exact Function.injective_id
  | cons b q ih => exact ih.comp (crcByte_injective b)

/-- A byte in a 16-bit value is shifted up by eight bits or less, and down again, whole. -/
theorem shiftLeft_succ_shiftRight (b : Byte) {n : Nat} (h : n < 8) :
    (b.zeroExtend 16 <<< (n + 1)) >>> 1 = (b.zeroExtend 16 <<< n : Half) := by
  ext i hi
  obtain hlow | ⟨j, rfl⟩ : i < n ∨ ∃ j, i = n + j := (Nat.lt_or_ge i n).imp_right Nat.exists_eq_add_of_le
  · have hskip : 1 + i ≤ n := by omega
    simp [hlow, hskip]
  · have hindex : 1 + (n + j) - (n + 1) = j := by omega
    by_cases hj : j < 8
    · simp [hindex, show 1 + (n + j) < 16 ∧ ¬ 1 + (n + j) ≤ n ∧ j < 16 by omega]
    · simp [hindex, BitVec.getLsbD_of_ge b j (by omega)]

/-- R160: a byte above the low bit of an otherwise empty register is shifted down whole. -/
theorem crcShift_shiftLeft (b : Byte) {n : Nat} (h : n < 8) :
    crcShift (b.zeroExtend 16 <<< (n + 1)) = b.zeroExtend 16 <<< n := by
  have hlow : (b.zeroExtend 16 <<< (n + 1) : Half).getLsbD 0 = false := by simp
  rw [crcShift_eq_xor, hlow, shiftLeft_succ_shiftRight b h]
  exact BitVec.xor_zero

/-- R160: a byte `n` bits up in an otherwise empty register stands in the low byte after `n` shifts. -/
theorem iterate_crcShift_shiftLeft (b : Byte) {n : Nat} (h : n ≤ 8) :
    crcShift^[n] (b.zeroExtend 16 <<< n) = b.zeroExtend 16 := by
  induction n with
  | zero => exact BitVec.shiftLeft_zero _
  | succ n ih => rw [Function.iterate_succ_apply, crcShift_shiftLeft b h, ih (by omega)]

/-- R160: a byte takes the register to zero exactly when it is the register. -/
theorem crcByte_eq_zero_iff (crc : Half) (b : Byte) : crcByte crc b = 0 ↔ crc = b.zeroExtend 16 := by
  have hzero : crcShift^[8] 0 = 0 := rfl
  rw [crcByte_eq_iterate, ← hzero, (crcShift_injective.iterate 8).eq_iff]
  exact BitVec.xor_eq_zero_iff

/-- The bits of the two bytes of a value do not meet. -/
theorem xor_high_byte (lo hi : Byte) : lo.zeroExtend 16 ^^^ (hi.zeroExtend 16 <<< 8) =
    (lo.zeroExtend 16 ||| (hi.zeroExtend 16 <<< 8) : Half) := by
  ext i hi
  by_cases h : i < 8
  · simp [h]
  · simp [h, BitVec.getLsbD_of_ge lo i (by omega)]

/-- R163: two bytes take the register to zero exactly when they are its bytes, low byte first. -/
theorem crcByte_crcByte_eq_zero_iff (crc : Half) (lo hi : Byte) :
    crcByte (crcByte crc lo) hi = 0 ↔ crc = lo.zeroExtend 16 ||| (hi.zeroExtend 16 <<< 8) := by
  rw [crcByte_eq_zero_iff, crcByte_eq_iterate]
  conv_lhs => rw [← iterate_crcShift_shiftLeft hi le_rfl]
  rw [(crcShift_injective.iterate 8).eq_iff, ← xor_high_byte, ← BitVec.xor_eq_zero_iff, BitVec.xor_assoc,
    BitVec.xor_eq_zero_iff]

/-! ### The CRC of a string -/

/-- CRC16 answers the CRC. -/
theorem exec_crc16 (d : List Byte) (s : State) : exec (.crc16 d) s = .next (s.finish (.crc (crc16 d))) := rfl

/-- R160: a byte at the end of a string is eight more of the rule's shifts. -/
theorem crc16_concat (d : List Byte) (b : Byte) :
    crc16 (d ++ [b]) = crcStep^[8] (crc16 d ^^^ b.zeroExtend 16) := by
  rw [← funext crcShift_eq_crcStep]
  exact List.foldl_concat ..

/-- Settles O26: the empty string, and one more byte. -/
theorem crc16ShiftsEachByte : Obligations.Crc16ShiftsEachByte := by
  refine ⟨exec_crc16 [], fun d b s => ⟨crc16 d, rfl, exec_crc16 d s, ?_⟩⟩
  rw [exec_crc16, crc16_concat]
  rfl

/-- R164: a changed byte shows in the CRC. -/
theorem crc16_ne_of_byte_ne (p q : List Byte) {a b : Byte} (h : a ≠ b) : crc16 (p ++ a :: q) ≠ crc16 (p ++ b :: q) := by
  rw [crc16, crc16, List.foldl_append, List.foldl_append]
  exact (foldl_crcByte_injective q).ne ((crcByte_byte_injective _).ne h)

/-- Settles O28: the byte's own step tells the two apart, and no later step brings them together. -/
theorem crcSeesOneChangedByte : Obligations.CrcSeesOneChangedByte := fun p q _ _ s h =>
  ⟨_, _, crc16_ne_of_byte_ne p q h, exec_crc16 _ s, exec_crc16 _ s⟩

/-! ### The check of a string's CRC -/

/-- CRC_CHECK answers the check. -/
theorem exec_crcCheck (x : List Byte) (s : State) : exec (.crcCheck x) s = .next (s.finish (.check (crcCheck x))) := rfl

/-- R163: the check is stated for two bytes or more. -/
theorem crcCheck_of_le {x : List Byte} (h : 2 ≤ x.length) : crcCheck x = crcGood x := if_pos h

/-- R163: the first form. -/
theorem crcGood_iff (x : List Byte) : crcGood x = true ↔ crc16 (x.take (x.length - 2)) =
    (x.getD (x.length - 2) 0).zeroExtend 16 ||| ((x.getD (x.length - 1) 0).zeroExtend 16 <<< 8) :=
  beq_iff_eq

/-- A string of two bytes or more ends in two bytes. -/
theorem take_append_last_two {x : List Byte} (h : 2 ≤ x.length) :
    x.take (x.length - 2) ++ [x.getD (x.length - 2) 0, x.getD (x.length - 1) 0] = x := by
  have htail : x.drop (x.length - 2) = [x.getD (x.length - 2) 0, x.getD (x.length - 1) 0] := by
    rw [List.drop_eq_getElem_cons (by omega), List.drop_eq_getElem_cons (by omega), List.drop_of_length_le (by omega),
      List.getD_eq_getElem _ _ (by omega), List.getD_eq_getElem _ _ (by omega)]
    simp only [show x.length - 2 + 1 = x.length - 1 by omega]
  rw [← htail, List.take_append_drop]

/-- R163: the second form is the first. -/
theorem crc16_eq_zero_iff {x : List Byte} (h : 2 ≤ x.length) : crc16 x = 0 ↔ crcGood x = true := by
  rw [crcGood_iff, ← crcByte_crcByte_eq_zero_iff]
  conv_lhs => rw [← take_append_last_two h, crc16, List.foldl_append]
  rfl

/-- Settles O27: the check is the first form. -/
theorem crcCheckHasTwoForms : Obligations.CrcCheckHasTwoForms := fun x s h =>
  ⟨crcGood x, _, _, crcCheck_of_le h ▸ exec_crcCheck x s, exec_crc16 x s, exec_crc16 _ s, crcGood_iff x,
    (crc16_eq_zero_iff h).symm⟩

/-! ### The bytes of a record -/

/-- A bit taken out of a byte is the byte shifted down and masked. -/
theorem zeroExtend_extractLsb'_one (c : Byte) (n : Nat) : (c.extractLsb' n 1).zeroExtend 8 = (c >>> n) &&& 0x01 := by
  ext i hi
  cases i <;> simp

/-- R71: the source address stands in bytes 2 to 4. -/
theorem frameFields_source_get (x : List Byte) {i : Nat} (h : i < 3) :
    (frameFields x).source.get i = x.getD (2 + i) 0 := by
  rw [Bytes.get_eq_getElem _ _ h]
  simp [frameFields, addrOrder, Bytes.slice]

/-- R71: the target address stands in bytes 5 to 7. -/
theorem frameFields_target_get (x : List Byte) {i : Nat} (h : i < 3) :
    (frameFields x).target.get i = x.getD (5 + i) 0 := by
  rw [Bytes.get_eq_getElem _ _ h]
  simp [frameFields, addrOrder, Bytes.slice]

/-- R71: the payload is all but the header's nine bytes and the CRC's two. -/
theorem frameFields_payload_length (x : List Byte) : (frameFields x).payload.length = x.length - 11 := by
  simp only [frameFields, headerLen, List.length_take, List.length_drop]
  omega

/-- R71: the payload stands from byte 9 on. -/
theorem frameFields_payload_getD (x : List Byte) {i : Nat} (h : i < x.length - 11) :
    (frameFields x).payload.getD i 0 = x.getD (9 + i) 0 := by
  simp [frameFields, headerLen, List.getD_eq_getElem?_getD, List.getElem?_take_of_lt h]

/-! ### The encoder -/

/-- FRAME_ENC is the encoder, whatever it answers. -/
theorem exec_frameEnc (f : Frame) (s : State) : exec (.frameEnc f) s = .next (encodeFrame f s) := rfl

/-- FRAME_ENC answers the bytes of a record that has an encoding. -/
theorem exec_frameEnc_of_ok {f : Frame} {bytes : List Byte} (h : frameEnc f = .ok bytes) (s : State) :
    exec (.frameEnc f) s = .next (s.finish (.encoded bytes)) := by
  simp only [exec_frameEnc, encodeFrame, h]

/-- R165: FRAME_ENC refuses a longer payload, and says how long it is. -/
theorem exec_frameEnc_of_gt {f : Frame} (h : 21 < f.payload.length) (s : State) :
    exec (.frameEnc f) s = .next (s.raise (.payloadTooLong f.payload.length)) := by
  simp only [exec_frameEnc, encodeFrame, frameEnc_of_gt h]

section

variable {f : Frame} {bytes : List Byte} (h : frameEnc f = .ok bytes)
include h

/-- R165: the bytes before the CRC. -/
theorem frameEnc_take : bytes.take (9 + f.payload.length) = preCrcBytes f := by
  obtain ⟨-, rfl⟩ := frameEnc_ok_iff.mp h
  rw [← preCrcBytes_length f, List.take_left]

/-- R162: the CRC's bytes follow the payload. -/
theorem frameEnc_crc_getD (i : Nat) :
    bytes.getD (9 + f.payload.length + i) 0 = (crcBytes (crc16 (preCrcBytes f))).getD i 0 := by
  obtain ⟨-, rfl⟩ := frameEnc_ok_iff.mp h
  rw [← preCrcBytes_length f, List.getD_append_right _ _ _ _ (by omega), Nat.add_sub_cancel_left]

end

/-- Settles O29: the record that the bytes hold is the record encoded, so its fields stand where FRAME_DEC reads them. -/
theorem frameEncLaysOutTheFrame : Obligations.FrameEncLaysOutTheFrame := by
  refine fun f s => ⟨rfl, fun hle => ?_, fun hgt => exec_frameEnc_of_gt hgt s⟩
  obtain ⟨bytes, h⟩ : ∃ bytes, frameEnc f = .ok bytes := ⟨_, frameEnc_of_le hle⟩
  have hlen := frameEnc_length h
  have hfields := frameFields_of_frameEnc h
  refine ⟨bytes, crc16 (preCrcBytes f), exec_frameEnc_of_ok h s, hlen, frameEnc_ctrl1 h, ?_, fun i hi => ?_,
    fun i hi => ?_, frameEnc_cmd h, fun i hi => ?_, ?_, ?_, ?_⟩
  · exact congrArg Frame.ctrl2 hfields
  · rw [← frameFields_source_get bytes hi, hfields]
  · rw [← frameFields_target_get bytes hi, hfields]
  · rw [← frameFields_payload_getD bytes (by omega), hfields]
  · rw [frameEnc_take h]
    exact exec_crc16 _ s
  · exact frameEnc_crc_getD h 0
  · rw [show 10 + f.payload.length = 9 + f.payload.length + 1 by omega]
    exact frameEnc_crc_getD h 1

/-! ### The decoder's checks -/

/-- FRAME_DEC is the decoder, whatever it answers. -/
theorem exec_frameDec (x : List Byte) (s : State) : exec (.frameDec x) s = .next (decodeFrame x s) := rfl

/-- FRAME_DEC answers the record of a string that decodes. -/
theorem exec_frameDec_of_ok {x : List Byte} {f : Frame} (h : frameDec x = .ok f) (s : State) :
    exec (.frameDec x) s = .next (s.finish (.decoded f)) := by
  simp only [exec_frameDec, decodeFrame, h]

/-- FRAME_DEC answers an error exactly when the string does not decode, with that error. -/
theorem exec_frameDec_error_iff {x : List Byte} {e : OpError} {s : State} :
    exec (.frameDec x) s = .next (s.raise e) ↔ frameDec x = .error e := by
  rw [exec_frameDec]
  obtain ⟨f, hdec, hs⟩ | ⟨e', hdec, hs⟩ := decodeFrame_cases x s
  · simp [hs, hdec, State.raise, State.finish]
  · simp [hs, hdec, State.raise]

section

variable {x : List Byte}

/-- R167: the first check. -/
theorem frameDec_of_lt (h : x.length < 11) : frameDec x = .error (.tooShort x.length) := if_pos h

variable (hlen : 11 ≤ x.length)
include hlen

/-- R167: the second check. -/
theorem frameDec_of_badCrc (hcrc : crcGood x = false) : frameDec x = .error .badCrc := by
  rw [frameDec, if_neg (by omega), if_pos hcrc]

/-- R167: what is left when the first two checks pass. -/
theorem frameDec_of_crcGood (hcrc : crcGood x = true) : frameDec x =
    if 21 < x.length - 11 then .error (.payloadTooLong (x.length - 11))
    else if ctrl1MsgLen (x.getD 0 0) ≠ x.length - 3 then .error (.lengthMismatch (ctrl1MsgLen (x.getD 0 0)) x.length)
    else .ok (frameFields x) := by
  rw [frameDec, if_neg (by omega), if_neg (by simp [hcrc]), payloadMax]

/-- FRAME_DEC's own check is CRC_CHECK. -/
theorem exec_crcCheck_iff {good : Bool} {s : State} :
    exec (.crcCheck x) s = .next (s.finish (.check good)) ↔ crcGood x = good := by
  rw [exec_crcCheck, crcCheck_of_le (by omega)]
  simp [State.finish]

end

/-- R167: a string decodes when it passes every check, and then to the record of its fields. -/
theorem frameDec_ok_iff {x : List Byte} {f : Frame} : frameDec x = .ok f ↔
    11 ≤ x.length ∧ crcGood x = true ∧ x.length - 11 ≤ 21 ∧ ctrl1MsgLen (x.getD 0 0) = x.length - 3 ∧
      frameFields x = f := by
  by_cases hlen : 11 ≤ x.length
  · cases hcrc : crcGood x with
    | false => simp [frameDec_of_badCrc hlen hcrc]
    | true =>
      rw [frameDec_of_crcGood hlen hcrc]
      generalize ctrl1MsgLen (x.getD 0 0) = msgLen
      split_ifs with hlong hmsg
      · simp [Nat.not_le.mpr hlong]
      · simp [hmsg]
      · simp [hlen, Nat.not_lt.mp hlong, not_not.mp hmsg]
  · simp [frameDec_of_lt (Nat.not_le.mp hlen), hlen]

/-- R252: a received string that is refused does nothing. -/
theorem rxFrame_of_error {x : List Byte} {e : OpError} (h : frameDec x = .error e) (s : State) : rxFrame x s = s := by
  obtain hs | ⟨-, -, f, -, hok, -⟩ := rxFrame_cases x s
  · exact hs
  · cases h.symm.trans hok

/-- Settles O30: check by check, then the fields of the record. -/
theorem frameDecChecksInOrder : Obligations.FrameDecChecksInOrder := by
  intro x s
  refine ⟨rfl, fun hlt => ?_, fun hlen hbad => ?_, fun hlen hgood hlong => ?_, fun hlen hgood hfit hmsg => ?_,
    fun hlen hgood hfit hmsg => ?_, fun e rest herror hturn => ?_⟩
  · exact exec_frameDec_error_iff.mpr (frameDec_of_lt hlt)
  · exact exec_frameDec_error_iff.mpr (frameDec_of_badCrc hlen ((exec_crcCheck_iff hlen).mp hbad))
  · apply exec_frameDec_error_iff.mpr
    rw [frameDec_of_crcGood hlen ((exec_crcCheck_iff hlen).mp hgood), if_pos hlong]
  · apply exec_frameDec_error_iff.mpr
    rw [frameDec_of_crcGood hlen ((exec_crcCheck_iff hlen).mp hgood), if_neg (by omega)]
    exact if_pos hmsg
  · have hok := frameDec_ok_iff.mpr ⟨hlen, (exec_crcCheck_iff hlen).mp hgood, hfit, hmsg, rfl⟩
    exact ⟨frameFields x, exec_frameDec_of_ok hok s, zeroExtend_extractLsb'_one _ 5, zeroExtend_extractLsb'_one _ 6,
      zeroExtend_extractLsb'_one _ 7, rfl, fun _ => frameFields_source_get x, fun _ => frameFields_target_get x, rfl,
      frameFields_payload_length x, fun _ => frameFields_payload_getD x⟩
  · rw [step_of_turn hturn]
    exact congrArg Host.Outcome.next (rxFrame_of_error (exec_frameDec_error_iff.mp herror) _)

/-! ### A string that decodes, encoded again -/

/-- R72: `ctrl1` of the fields of a control byte is the byte. -/
theorem ctrl1_fields (c : Byte) : ctrl1 (ctrl1MsgLen c) (ctrl1Protocol c) (ctrl1StartFrame c) (ctrl1EndFrame c) = c := by
  revert c
  decide

/-- R162: the two bytes of a value are the bytes it is made of. -/
theorem crcBytes_of_bytes (lo hi : Byte) :
    crcBytes (lo.zeroExtend 16 ||| (hi.zeroExtend 16 <<< 8)) = [lo, hi] := by
  have hlow : (lo.zeroExtend 16 ||| (hi.zeroExtend 16 <<< 8) : Half).extractLsb' 0 8 = lo := by
    ext i h
    simp [h]
    omega
  have hhigh : (lo.zeroExtend 16 ||| (hi.zeroExtend 16 <<< 8) : Half).extractLsb' 8 8 = hi := by
    ext i h
    simp [show 8 + i < 16 ∧ i < 16 by omega, BitVec.getLsbD_eq_getElem h]
  rw [crcBytes, hlow, hhigh]

/-- R9: the bytes of a slice that its string has. -/
theorem slice_data {x : List Byte} {i n : Nat} (h : i + n ≤ x.length) :
    (Bytes.slice x i n).data = (x.drop i).take n := by
  refine List.ext_getElem (by simp [Bytes.slice]; omega) fun j hj _ => ?_
  have hbound : i + j < x.length := by
    rw [(Bytes.slice x i n).size] at hj
    omega
  simp [Bytes.slice, hbound]

/-- R70: a string of eleven bytes or more is a header of nine, a payload and two more bytes. -/
theorem take_eq_header_append {x : List Byte} (h : 11 ≤ x.length) : x.take (x.length - 2) =
    [x.getD 0 0, x.getD 1 0, x.getD 2 0, x.getD 3 0, x.getD 4 0, x.getD 5 0, x.getD 6 0, x.getD 7 0, x.getD 8 0] ++
      (x.drop 9).take (x.length - 11) := by
  rw [show x.length - 2 = 9 + (x.length - 11) by omega, List.take_add]
  have hheader : x.take 9 = (Bytes.slice x 0 9).data := (slice_data (i := 0) (by omega)).symm
  rw [hheader]
  rfl

/-- R165, R167: the header and payload of a string whose length field is right are those of its record. -/
theorem preCrcBytes_frameFields {x : List Byte} (hlen : 11 ≤ x.length) (hmsg : ctrl1MsgLen (x.getD 0 0) = x.length - 3) :
    preCrcBytes (frameFields x) = x.take (x.length - 2) := by
  have hctrl : ctrl1 (8 + (frameFields x).payload.length) (frameFields x).protocol (frameFields x).startFrame
      (frameFields x).endFrame = x.getD 0 0 := by
    rw [frameFields_payload_length, show 8 + (x.length - 11) = ctrl1MsgLen (x.getD 0 0) by omega]
    exact ctrl1_fields _
  rw [preCrcBytes_eq rfl rfl, hctrl, take_eq_header_append hlen]
  rfl

/-- R169: encoding inverts decoding. -/
theorem frameEnc_of_frameDec {x : List Byte} {f : Frame} (h : frameDec x = .ok f) : frameEnc f = .ok x := by
  obtain ⟨hlen, hcrc, hfit, hmsg, rfl⟩ := frameDec_ok_iff.mp h
  refine frameEnc_ok_iff.mpr ⟨frameFields_payload_length x ▸ hfit, ?_⟩
  rw [preCrcBytes_frameFields hlen hmsg, (crcGood_iff x).mp hcrc, crcBytes_of_bytes, take_append_last_two (by omega)]

/-- Settles O5: both directions. -/
theorem frameCodecRoundTrip : Obligations.FrameCodecRoundTrip := by
  refine ⟨fun f s hle => ?_, fun x s => ?_⟩
  · have henc := frameEnc_of_le hle
    exact ⟨_, exec_frameEnc_of_ok henc s, exec_frameDec_of_ok (frameDec_of_frameEnc henc) s⟩
  · cases hdec : frameDec x with
    | error e => exact .inl ⟨e, exec_frameDec_error_iff.mpr hdec⟩
    | ok f => exact .inr ⟨f, exec_frameDec_of_ok hdec s, exec_frameEnc_of_ok (frameEnc_of_frameDec hdec) s⟩

end Sys2Proof.Machine
end

section
/-! PROOFS of the family 45_radio_arbiter.md: what SEND and each event of the arbiter do in the states where they do
something; then what every turn keeps (the invariant, the table of the radio states, the end of the air log); then runs,
of given turns and with weak fairness. -/

namespace Sys2Proof.Machine

open Sys2Proof.Claims

/-! ### SEND and ON_RECEIVE -/

/-- R183: SEND goes by its gates, whatever they answer. -/
theorem exec_send (f : Frame) (o : SendOpts) (s : State) : exec (.send f o) s = .next (sendFrame f o s) := rfl

/-- R182, R183: the radio-state gate. -/
theorem sendFrame_of_busy {s : State} (h : s.radioState = .tx ∨ s.radioState = .preamble) (f : Frame) (o : SendOpts) :
    sendFrame f o s = s.raise .radioBusy := if_pos h

/-- R183: the depth gate. -/
theorem sendFrame_of_full {s : State} (hradio : s.radioState = .rx) (hfull : s.txQueue.length = Config.txqDepth)
    (f : Frame) (o : SendOpts) : sendFrame f o s = s.raise .radioBusy := by
  simp [sendFrame, hradio, hfull]

/-- R183, R252: with the gates open, the encoder's error. -/
theorem sendFrame_of_gt {s : State} {f : Frame} (hradio : s.radioState = .rx)
    (hroom : s.txQueue.length ≠ Config.txqDepth) (hlen : 21 < f.payload.length) (o : SendOpts) :
    sendFrame f o s = s.raise (.payloadTooLong f.payload.length) := by
  simp [sendFrame, hradio, hroom, frameEnc_of_gt hlen]

/-- Settles O32, gate by gate. -/
theorem sendPassesItsGates : Obligations.SendPassesItsGates := by
  intro f o s
  rw [exec_send]
  refine ⟨rfl, fun hbusy => ?_, fun hradio hfull => ?_, fun hradio hroom hlong => ?_, fun hradio hroom hlen => ?_⟩
  · rw [sendFrame_of_busy hbusy]; rfl
  · rw [sendFrame_of_full hradio hfull]; rfl
  · rw [sendFrame_of_gt hradio hroom hlong]; rfl
  · have henc := frameEnc_of_le hlen
    refine ⟨_, exec_frameEnc_of_ok henc s, ?_⟩
    rw [sendFrame_of_accepts hradio hroom henc]
    rfl

/-- Settles O33, in every state alike. -/
theorem onReceiveReplacesTheCallback : Obligations.OnReceiveReplacesTheCallback := fun _ _ => ⟨rfl, rfl⟩

/-! ### StartTx -/

/-- R190: the oldest due entry is found behind entries that are not due. -/
theorem oldestDue_append {now : Nat} {before after : List TxEntry} {e : TxEntry} (hdue : e.dueAt ≤ now)
    (hbefore : ∀ d ∈ before, now < d.dueAt) :
    oldestDue now (before ++ e :: after) = some (e, before ++ after) := by
  induction before with
  | nil => simp [oldestDue, hdue]
  | cons d before ih =>
    have ⟨hd, htail⟩ := List.forall_mem_cons.mp hbefore
    simp [oldestDue, Nat.not_le.mpr hd, ih htail]

/-- R190, R194 (a): a due entry at the head is taken, whether or not it holds the others back. -/
theorem eligible_cons_of_due {now : Nat} {e : TxEntry} (hdue : e.dueAt ≤ now) (tail : List TxEntry) :
    eligible now (e :: tail) = some (e, tail) := by
  simp [eligible, oldestDue, hdue]

/-- R190, R194 (a): the oldest due entry is taken when the head does not hold it back. -/
theorem eligible_append {now : Nat} {before after : List TxEntry} {e : TxEntry} (hdue : e.dueAt ≤ now)
    (hbefore : ∀ d ∈ before, now < d.dueAt) (hhead : ∀ d ∈ before.head?, holdsBack d = false) :
    eligible now (before ++ e :: after) = some (e, before ++ after) := by
  cases before with
  | nil => exact eligible_cons_of_due hdue after
  | cons d before =>
    rw [List.cons_append, eligible, hhead d rfl]
    exact oldestDue_append hdue hbefore

/-- R190: nothing is taken when nothing is due. -/
theorem eligible_of_none_due {now : Nat} {q : List TxEntry} (h : ∀ e ∈ q, now < e.dueAt) : eligible now q = none := by
  cases he : eligible now q with
  | none => rfl
  | some p =>
    obtain ⟨e, rest⟩ := p
    obtain ⟨before, after, rfl, -, hdue, -⟩ := eligible_some he
    exact absurd (h e (by simp)) (Nat.not_lt.mpr hdue)

/-- R194 (a): nothing is taken while the head waits for its repeat and holds the others back. -/
theorem eligible_of_held_back {now : Nat} {e : TxEntry} (hheld : holdsBack e = true) (hdue : now < e.dueAt)
    (tail : List TxEntry) : eligible now (e :: tail) = none := by
  simp [eligible, hheld, Nat.not_le.mpr hdue]

/-- R190: in `RX` the eligible entry goes on the air. -/
theorem startTx_of_eligible {s : State} {e : TxEntry} {rest : List TxEntry} (hradio : s.radioState = .rx)
    (he : eligible s.now s.txQueue = some (e, rest)) :
    startTx s = (s.emit (.preamble e.opts.frequency e.opts.shortPreamble)).beginTx e rest := by
  simp [startTx, hradio, he]

/-- R190, R191: outside `RX`, or with nothing eligible, StartTx does nothing. -/
theorem startTx_of_not_enabled {s : State} (h : s.radioState ≠ .rx ∨ eligible s.now s.txQueue = none) :
    startTx s = s := by
  obtain hs | ⟨hradio, e, rest, he, -⟩ := startTx_cases s
  · exact hs
  · obtain hbusy | hnone := h
    · exact absurd hradio hbusy
    · cases hnone.symm.trans he

/-- Settles O38: the entry is the one that `eligible` finds. -/
theorem startTxTakesTheOldestDue : Obligations.StartTxTakesTheOldestDue := by
  intro s rest before after e hn hradio hq hdue hbefore hhead
  have hheld : ∀ d ∈ before.head?, holdsBack d = false := fun d hd => by
    simpa only [holdsBack, Bool.and_eq_false_iff] using hhead d hd
  have he : eligible s.now s.txQueue = some (e, before ++ after) := hq ▸ eligible_append hdue hbefore hheld
  rw [step_of_turn hn, runTurn, startTx_of_eligible (s := { s with inputs := rest }) hradio he]
  rfl

/-- Settles O39: in each of the three cases nothing is eligible, or the radio is busy. -/
theorem startTxIsHeldBack : Obligations.StartTxIsHeldBack := by
  intro s rest hn h
  have hidle : s.radioState ≠ .rx ∨ eligible s.now s.txQueue = none := by
    obtain hbusy | hlater | ⟨e, tail, hq, hlock, hdone, hdue⟩ := h
    · exact .inl hbusy
    · exact .inr (eligible_of_none_due hlater)
    · exact .inr (hq ▸ eligible_of_held_back (by simp [holdsBack, hlock, hdone]) hdue tail)
  rw [step_of_turn hn, runTurn, startTx_of_not_enabled (s := { s with inputs := rest }) hidle]

/-! ### The transmission's events -/

/-- R192: the bytes of a frame that the host left alone are those made at SEND. -/
theorem sentBytes_of_intact {e : TxEntry} (h : e.storage = .intact) (n : Nat) : sentBytes n e = e.bytes := by
  simp only [sentBytes, h]

/-- A frame that the host left alone draws no free value. -/
theorem State.drawFor_of_intact {e : TxEntry} (h : e.storage = .intact) (s : State) : s.drawFor e = s := if_pos h

/-- R193, R195: the report of a frame that the host left alone. -/
theorem complete_of_intact {e : TxEntry} (h : e.storage = .intact) (s : State) (status : TxStatus) :
    complete s e status = (s.notify (.txComplete e.frame status)).endTx := by
  simp only [complete, State.drawFor_of_intact h, reportedFrame, h]

/-- R192: in `PREAMBLE` the bytes of the entry on the air go out. -/
theorem preambleDone_of_preamble {s : State} {e : TxEntry} (hradio : s.radioState = .preamble)
    (hcurrent : s.current = some e) :
    preambleDone s = ((s.emit (.frame e.opts.frequency (sentBytes s.freeIndex e))).drawFor e).goOnAir := by
  simp only [preambleDone, hradio, hcurrent]

/-- R192: outside `PREAMBLE` the event is not enabled. -/
theorem preambleDone_of_ne {s : State} (h : s.radioState ≠ .preamble) : preambleDone s = s := by
  obtain hs | ⟨hradio, -⟩ := preambleDone_cases s
  · exact hs
  · exact absurd hradio h

/-- R194: the model's test of whether the repeats go on is the rule's. -/
theorem repeatsContinue_iff (e : TxEntry) (queue : List TxEntry) : repeatsContinue e queue = true ↔ goesOn e queue := by
  simp [repeatsContinue, goesOn, or_assoc]

/-- R193: the entry waits for its next repeat. -/
theorem txDone_of_goesOn {s : State} {e : TxEntry} (hradio : s.radioState = .tx) (hcurrent : s.current = some e)
    (howed : 0 < e.repeatsLeft) (hgoes : goesOn e s.txQueue) : txDone s = s.endTx.requeue (repeated s.now e) := by
  simp only [txDone, hradio, hcurrent, howed, (repeatsContinue_iff e s.txQueue).mpr hgoes, and_self, if_true]

/-- R193: the entry is reported transmitted. -/
theorem txDone_of_last {s : State} {e : TxEntry} (hradio : s.radioState = .tx) (hcurrent : s.current = some e)
    (hlast : e.repeatsLeft = 0 ∨ ¬ goesOn e s.txQueue) : txDone s = complete s e .transmitted := by
  have hno : ¬ (0 < e.repeatsLeft ∧ repeatsContinue e s.txQueue = true) := by
    rw [repeatsContinue_iff, not_and_or, Nat.not_lt, Nat.le_zero]
    exact hlast
  simp only [txDone, hradio, hcurrent, hno, if_false]

/-- R195: in `PREAMBLE` or `TX` the entry on the air is reported failed. -/
theorem txFail_of_busy {s : State} {e : TxEntry} (hradio : s.radioState ≠ .rx) (hcurrent : s.current = some e) :
    txFail s = complete s e .failed := by
  cases hr : s.radioState with
  | rx => exact absurd hr hradio
  | preamble | tx => simp only [txFail, hr, hcurrent]

/-- Settles O40: the entry's storage is intact, so its bytes are those made at SEND. -/
theorem preambleDoneSendsTheBytes : Obligations.PreambleDoneSendsTheBytes := by
  intro s rest e hn hradio hcurrent hintact
  rw [step_of_turn hn, runTurn, preambleDone_of_preamble (s := { s with inputs := rest }) hradio hcurrent,
    State.drawFor_of_intact hintact, sentBytes_of_intact hintact]
  rfl

/-- Settles O41: the two branches of `txDone`. -/
theorem txDoneRepeatsOrReports : Obligations.TxDoneRepeatsOrReports := by
  intro s rest e hn hradio hcurrent
  rw [step_of_turn hn, runTurn]
  refine ⟨fun howed hgoes => ?_, fun hlast hintact => ?_⟩
  · rw [txDone_of_goesOn (s := { s with inputs := rest }) hradio hcurrent howed hgoes]
    rfl
  · rw [txDone_of_last (s := { s with inputs := rest }) hradio hcurrent hlast, complete_of_intact hintact]
    rfl

/-- Settles O42: the report of an intact entry. -/
theorem txFailReportsFailure : Obligations.TxFailReportsFailure := by
  intro s rest e hn hradio hcurrent hintact
  have hbusy : s.radioState ≠ .rx := by obtain h | h := hradio <;> simp [h]
  rw [step_of_turn hn, runTurn, txFail_of_busy (s := { s with inputs := rest }) hbusy hcurrent,
    complete_of_intact hintact]
  rfl

/-! ### RxFrame -/

/-- FRAME_DEC answers a record exactly when the string decodes, to that record. -/
theorem exec_frameDec_ok_iff {x : List Byte} {f : Frame} {s : State} :
    exec (.frameDec x) s = .next (s.finish (.decoded f)) ↔ frameDec x = .ok f := by
  rw [exec_frameDec]
  obtain ⟨g, hdec, hs⟩ | ⟨e, hdec, hs⟩ := decodeFrame_cases x s
  · simp [hs, hdec, State.finish]
  · simp [hs, hdec, State.raise, State.finish]

/-- R198: outside `RX` or with no callback a string is dropped. -/
theorem rxFrame_drops {s : State} (h : s.radioState ≠ .rx ∨ s.rxCallback = none) (x : List Byte) : rxFrame x s = s := by
  obtain hs | ⟨hradio, -, f, cb, -, hcb, -⟩ := rxFrame_cases x s
  · exact hs
  · obtain hbusy | hnone := h
    · exact absurd hradio hbusy
    · cases hnone.symm.trans hcb

/-- R198: a callback that is free is handed the record that the string decodes to. -/
theorem rxFrame_enters {s : State} {x : List Byte} {f : Frame} {cb : Nat} (hradio : s.radioState = .rx)
    (hidle : s.running = none) (hdec : frameDec x = .ok f) (hcb : s.rxCallback = some cb) :
    rxFrame x s = s.enterCallback cb f := by
  simp [rxFrame, hradio, hidle, hdec, hcb]

/-- R259: when the turn of an arbiter event is next, no callback runs. -/
theorem running_none_of_event {s : State} {turn : Turn} {rest : List Turn} (hn : nextTurn s = some (turn, rest))
    (he : turn.isArbiterEvent = true) : s.running = none := by
  by_contra hruns
  exact absurd he (by simp [nextTurn_running hn hruns])

/-- Settles O43: dropped, or handed to the callback, which is free since the turn is next. -/
theorem rxFrameCallsBackOrDrops : Obligations.RxFrameCallsBackOrDrops := by
  intro s rest x hn
  rw [step_of_turn hn, runTurn]
  refine ⟨fun hbusy => ?_, fun hnone => ?_, fun e hexec => ?_, fun f cb hradio hcb hexec => ?_⟩
  · rw [rxFrame_drops (s := { s with inputs := rest }) (.inl hbusy)]
  · rw [rxFrame_drops (s := { s with inputs := rest }) (.inr hnone)]
  · rw [rxFrame_of_error (exec_frameDec_error_iff.mp hexec)]
  · have hidle : s.running = none := running_none_of_event hn rfl
    rw [rxFrame_enters (s := { s with inputs := rest }) hradio hidle (exec_frameDec_ok_iff.mp hexec) hcb]
    rfl

/-! ### The invariant -/

/-- R183: the entry that SEND makes is sound. -/
theorem newEntry_sound {f : Frame} {bytes : List Byte} (h : frameEnc f = .ok bytes) (now : Nat) (o : SendOpts) :
    (newEntry now f bytes o).Sound := ⟨h, fun _ => rfl, nofun⟩

/-- R292: a breach leaves an entry sound, as what was given to SEND stays. -/
theorem TxEntry.Sound.breach {e : TxEntry} (h : e.Sound) (st : FrameStorage) : (e.breach st).Sound := h

/-- R292: a breach of one entry of a list leaves the others as they are. -/
theorem mem_modify_breach {q : List TxEntry} {n : Nat} {st : FrameStorage} {d : TxEntry}
    (h : d ∈ q.modify n fun e => e.breach st) : ∃ e ∈ q, d = e ∨ d = e.breach st := by
  obtain ⟨i, hi, rfl⟩ := List.mem_iff_getElem.mp h
  rw [List.getElem_modify]
  refine ⟨q[i]'(by simpa using hi), List.getElem_mem _, ?_⟩
  split
  · exact .inr rfl
  · exact .inl rfl

/-- R193: an entry that owes a repeat owes one less while it waits for it. -/
theorem TxEntry.Sound.repeated {e : TxEntry} (h : e.Sound) (howed : 0 < e.repeatsLeft) (now : Nat) :
    (Machine.repeated now e).Sound := by
  obtain ⟨henc, hfirst, hlater⟩ := h
  have hle : e.repeatsLeft ≤ e.opts.repeatCount := by
    cases hd : e.firstDone with
    | false => exact (hfirst hd).le
    | true => exact (hlater hd).le
  exact ⟨henc, nofun, fun _ => show e.repeatsLeft - 1 < e.opts.repeatCount by omega⟩

/-- The invariant in `RX`: nothing is on the air, and the queued entries are few enough and sound. -/
theorem State.Inv.of_rx {s : State} (hradio : s.radioState = .rx) (hcurrent : s.current = none)
    (hdepth : s.txQueue.length ≤ Config.txqDepth) (hsound : ∀ e ∈ s.txQueue, e.Sound) : s.Inv := by
  have howned : s.owned = s.txQueue := by simp [State.owned, hcurrent]
  exact ⟨by simp [hradio, hcurrent], howned ▸ hdepth, howned ▸ hsound, fun _ => hradio⟩

/-- The invariant out of `RX`: an entry is on the air, and no callback runs. -/
theorem State.Inv.of_busy {s : State} {e : TxEntry} (hradio : s.radioState ≠ .rx) (hcurrent : s.current = some e)
    (hidle : s.running = none) (hdepth : (e :: s.txQueue).length ≤ Config.txqDepth)
    (hsound : ∀ d ∈ e :: s.txQueue, d.Sound) : s.Inv := by
  have howned : s.owned = e :: s.txQueue := by simp [State.owned, hcurrent]
  exact ⟨by simp [hradio, hcurrent], howned ▸ hdepth, howned ▸ hsound, by simp [hidle]⟩

/-- R181: a busy radio has an entry on the air. -/
theorem State.Inv.exists_current {s : State} (h : s.Inv) (hradio : s.radioState ≠ .rx) : ∃ e, s.current = some e :=
  Option.ne_none_iff_exists'.mp (mt h.1.mp hradio)

/-- R259: while the radio is busy no callback runs. -/
theorem State.Inv.running_none {s : State} (h : s.Inv) (hradio : s.radioState ≠ .rx) : s.running = none := by
  obtain ⟨-, -, -, hcallback⟩ := h
  simpa using mt hcallback hradio

/-- R181: every turn that may run keeps the invariant. An arbiter event does not run while the callback does. -/
theorem TurnEffect.keeps_inv {turn : Turn} {s t : State} (he : TurnEffect turn s t) (hinv : s.Inv)
    (hidle : turn.isArbiterEvent = true → s.running = none) : t.Inv := by
  have ⟨hradio, hdepth, hsound, hcallback⟩ := hinv
  cases he with
  | nothing h | result _ _ _ _ h | clocked _ _ h => subst h; exact hinv
  | callback f cb radio _ _ h => subst h; exact ⟨hradio, hdepth, hsound, fun _ => radio⟩
  | returned h => subst h; exact ⟨hradio, hdepth, hsound, nofun⟩
  | accepted f o bytes radio room enc h =>
    subst h
    have hcurrent := hradio.mpr radio
    have howned : s.owned = s.txQueue := by simp [State.owned, hcurrent]
    rw [howned] at hdepth hsound
    refine .of_rx radio hcurrent ?_ fun e he => ?_
    · simp only [State.finish_txQueue, State.enqueue_txQueue, List.length_append, List.length_singleton]
      omega
    · obtain he | rfl : e ∈ s.txQueue ∨ e = newEntry s.now f bytes o := by simpa using he
      · exact hsound e he
      · exact newEntry_sound enc s.now o
  | breached slot st _ _ h =>
    have howned : t.owned = s.owned.modify slot fun e => e.breach st := by rw [h, breach_owned]
    obtain ⟨queue, current, air, n, hnone, hb⟩ := breach_eq s slot st
    rw [hb] at h
    refine ⟨?_, by simpa [howned] using hdepth, fun e he => ?_, by rw [h]; exact hcallback⟩
    · rw [h]; exact hnone.trans hradio
    · rw [howned] at he
      obtain ⟨d, hd, rfl | rfl⟩ := mem_modify_breach he
      · exact hsound _ hd
      · exact (hsound _ hd).breach st
  | started e rest which radio entry h =>
    subst h
    have howned : s.owned = s.txQueue := by simp [State.owned, hradio.mpr radio]
    have hperm := eligible_perm entry
    rw [howned] at hdepth hsound
    exact .of_busy nofun rfl (hidle (by rw [which]; rfl)) (hperm.length_eq ▸ hdepth)
      fun d hd => hsound d (hperm.subset hd)
  | onAir e _ radio entry h =>
    obtain ⟨n, hn⟩ := goOnAir_eq s e (sentBytes s.freeIndex e)
    rw [h, hn]
    exact ⟨by simp [entry], hdepth, hsound, fun hr => by simp [hcallback hr] at radio⟩
  | repeats e _ _ entry owed _ h =>
    subst h
    have howned : s.owned = e :: s.txQueue := by simp [State.owned, entry]
    rw [howned] at hdepth hsound
    have ⟨he, hqueue⟩ := List.forall_mem_cons.mp hsound
    exact .of_rx rfl rfl hdepth (List.forall_mem_cons.mpr ⟨he.repeated owed s.now, hqueue⟩)
  | done e _ _ entry _ h | failed e _ _ entry h =>
    have howned : s.owned = e :: s.txQueue := by simp [State.owned, entry]
    rw [howned] at hdepth hsound
    obtain ⟨g, n, hc⟩ := complete_eq s e _
    rw [h, hc]
    exact .of_rx rfl rfl (Nat.le_of_succ_le hdepth) (List.forall_mem_cons.mp hsound).2
  | wasReset _ h => subst h; exact .of_rx rfl rfl (Nat.zero_le _) nofun

/-- A step waits, with no turn to take, or has done what its next turn does. -/
theorem step_cases {s t : State} (hs : step s = .next t) :
    (nextTurn s = none ∧ t = s) ∨
      ∃ turn rest, nextTurn s = some (turn, rest) ∧ TurnEffect turn { s with inputs := rest } t := by
  cases hn : nextTurn s with
  | none => exact .inl ⟨rfl, (Host.Outcome.next.inj ((step_of_no_turn hn).symm.trans hs)).symm⟩
  | some p => exact .inr ⟨p.1, p.2, rfl, step_effect hn hs⟩

/-- Settles O49, by what a turn can have done: an arbiter event is not next while the callback runs. -/
theorem stepKeepsInv : Obligations.StepKeepsInv := by
  intro s t hinv hs
  obtain ⟨-, rfl⟩ | ⟨turn, rest, hn, he⟩ := step_cases hs
  · exact hinv
  · have hidle : turn.isArbiterEvent = true → s.running = none := running_none_of_event hn
    exact he.keeps_inv hinv hidle

/-- Settles O48: in `RX` with nothing owned. -/
theorem invHoldsAtReset : Obligations.InvHoldsAtReset := .of_rx rfl rfl (Nat.zero_le _) nofun

/-! ### The table of the radio states and the air log -/

/-- Settles O51: by what a turn can have done. -/
theorem radioChangesOnlyAsTheTableSays : Obligations.RadioChangesOnlyAsTheTableSays := by
  intro s t turn rest hn hs
  cases step_effect hn hs with
  | nothing h | result _ _ _ _ h | accepted _ _ _ _ _ _ h | callback _ _ _ _ _ h | returned h | clocked _ _ h =>
    subst h; exact .inl rfl
  | breached slot st _ _ h =>
    obtain ⟨queue, current, air, n, -, hb⟩ := breach_eq { s with inputs := rest } slot st
    rw [h, hb]
    exact .inl rfl
  | started e q which radio entry h =>
    subst h
    exact .inr (.inl ⟨which, radio, rfl, e, (eligible_perm entry).subset List.mem_cons_self, rfl⟩)
  | onAir e which radio _ h =>
    obtain ⟨n, hair⟩ := goOnAir_eq { s with inputs := rest } e (sentBytes s.freeIndex e)
    rw [h, hair]
    exact .inr (.inr (.inl ⟨which, radio, rfl, rfl⟩))
  | repeats e which radio _ _ _ h => subst h; exact .inr (.inr (.inr (.inl ⟨which, radio, rfl, rfl⟩)))
  | done e which radio _ _ h => subst h; exact .inr (.inr (.inr (.inl ⟨which, radio, rfl, rfl⟩)))
  | failed e which radio _ h => subst h; exact .inr (.inr (.inr (.inr (.inl ⟨which, radio, rfl, rfl⟩))))
  | wasReset which h => subst h; exact .inr (.inr (.inr (.inr (.inr ⟨which, rfl, rfl⟩))))

/-- R292: a breach changes the bytes that are going out, not their channel. -/
theorem State.AirAgrees.breach {s : State} (hs : s.AirAgrees) (slot : Nat) (st : FrameStorage) :
    (s.breach slot st).AirAgrees := by
  obtain ⟨-, h⟩ | ⟨c, hc, -, h⟩ | ⟨c, n, -, -, h⟩ := breach_cases s slot st <;> rw [h]
  · exact hs
  · by_cases hradio : s.radioState = .tx
    · obtain ⟨e, log, bytes, he, hair⟩ := hs hradio
      cases he.symm.trans hc
      rw [disturbAir_of_tx (s := { s with current := some (c.breach st) }) hradio hair]
      exact fun _ => ⟨c.breach st, log, _, rfl, rfl⟩
    · rw [disturbAir_of_ne (s := { s with current := some (c.breach st) }) hradio]
      exact fun h => absurd h hradio
  · exact hs

/-- R192: every turn keeps the frame on the air at the end of the log, or takes the radio out of `TX`, or puts a frame
there. -/
theorem TurnEffect.keeps_airAgrees {turn : Turn} {s t : State} (he : TurnEffect turn s t) (hs : s.AirAgrees) :
    t.AirAgrees := by
  cases he with
  | nothing h | result _ _ _ _ h | accepted _ _ _ _ _ _ h | callback _ _ _ _ _ h | returned h | clocked _ _ h =>
    subst h; exact hs
  | breached slot st _ _ h => subst h; exact hs.breach slot st
  | onAir e _ _ entry h =>
    obtain ⟨n, hair⟩ := goOnAir_eq s e (sentBytes s.freeIndex e)
    rw [h, hair]
    exact fun _ => ⟨e, s.air, _, entry, rfl⟩
  | started _ _ _ _ _ h | repeats _ _ _ _ _ _ h | done _ _ _ _ _ h | failed _ _ _ _ h | wasReset _ h =>
    subst h; exact nofun

/-- Settles O58: after reset the radio is in `RX`, and a step waits or takes a turn. -/
theorem airLogEndsWithTheFrameOnAir : Obligations.AirLogEndsWithTheFrameOnAir := by
  refine ⟨nofun, fun s t hair hs => ?_⟩
  obtain ⟨-, rfl⟩ | ⟨turn, rest, -, he⟩ := step_cases hs
  · exact hair
  · exact he.keeps_airAgrees hair

/-! ### Runs of given turns -/

/-- While no callback runs, the first turn of the list is next. -/
theorem nextTurn_of_idle {s : State} {turn : Turn} {rest : List Turn} (hidle : s.running = none)
    (hin : s.inputs = turn :: rest) : nextTurn s = some (turn, rest) := by
  simp only [nextTurn, hidle, hin]

/-- A run whose first step is known. -/
theorem run_of_step {s t u : State} {k : Nat} (hs : step s = .next t) (hk : Host.Core.run core k t = .next u) :
    Host.Core.run core (k + 1) s = .next u := by
  have hcore : core.step s = .next t := hs
  simpa only [Host.Core.run, hcore] using hk

/-- A run goes on where another one ends. -/
theorem run_trans {s t u : State} {j k : Nat} (hj : Host.Core.run core j s = .next t)
    (hk : Host.Core.run core k t = .next u) : Host.Core.run core (k + j) s = .next u := by
  induction j generalizing s with
  | zero => cases hj; exact hk
  | succ j ih =>
    cases hs : step s with
    | next r =>
      have hcore : core.step s = .next r := hs
      exact run_of_step hs (ih (by simpa only [Host.Core.run, hcore] using hj))
    | fault f => cases f
    | refused r =>
      have hcore : core.step s = .refused r := hs
      simp only [Host.Core.run, hcore] at hj
      cases hj

/-- R35: the clock advances. -/
theorem step_clock {s : State} {ms : Nat} {rest : List Turn} (hidle : s.running = none)
    (hin : s.inputs = .clock ms :: rest) : step s = .next { s with inputs := rest, now := s.now + ms } :=
  step_of_turn (nextTurn_of_idle hidle hin)

/-- R193: in `TX` the end of the transmission gives `RX` with nothing on the air. -/
theorem txDone_ends {s : State} {e : TxEntry} (hradio : s.radioState = .tx) (hcurrent : s.current = some e) :
    (txDone s).radioState = .rx ∧ (txDone s).current = none ∧ (txDone s).inputs = s.inputs := by
  by_cases h : 0 < e.repeatsLeft ∧ goesOn e s.txQueue
  · rw [txDone_of_goesOn hradio hcurrent h.1 h.2]
    exact ⟨rfl, rfl, rfl⟩
  · obtain ⟨g, n, hc⟩ := complete_eq s e .transmitted
    rw [txDone_of_last hradio hcurrent ((not_and_or.mp h).imp_left Nat.eq_zero_of_not_pos), hc]
    exact ⟨rfl, rfl, rfl⟩

/-- R192: out of `RX` the preamble's end gives `TX` with the same entry on the air, or finds the radio in `TX` already. -/
theorem preambleDone_gives_tx {s : State} {e : TxEntry} (hradio : s.radioState ≠ .rx) (hcurrent : s.current = some e) :
    (preambleDone s).radioState = .tx ∧ (preambleDone s).current = some e ∧
      (preambleDone s).running = s.running ∧ (preambleDone s).inputs = s.inputs := by
  cases hr : s.radioState with
  | rx => exact absurd hr hradio
  | preamble =>
    obtain ⟨n, hair⟩ := goOnAir_eq s e (sentBytes s.freeIndex e)
    rw [preambleDone_of_preamble hr hcurrent, hair]
    exact ⟨rfl, hcurrent, rfl, rfl⟩
  | tx =>
    rw [preambleDone_of_ne (by simp [hr])]
    exact ⟨hr, hcurrent, rfl, rfl⟩

/-- Settles O54: by the two events in their order, or by the failure. -/
theorem busyPeriodEnds : Obligations.BusyPeriodEnds := by
  intro s rest hinv hradio
  obtain ⟨e, hcurrent⟩ := hinv.exists_current hradio
  have hidle := hinv.running_none hradio
  refine ⟨fun hin => ?_, fun hin => ?_⟩
  · have hpre : step s = .next (preambleDone { s with inputs := .txDone :: rest }) :=
      step_of_turn (nextTurn_of_idle hidle hin)
    obtain ⟨htx, hsame, hidle', hin'⟩ :=
      preambleDone_gives_tx (s := { s with inputs := .txDone :: rest }) hradio hcurrent
    generalize preambleDone { s with inputs := .txDone :: rest } = u at hpre htx hsame hidle' hin'
    have hdone : step u = .next (txDone { u with inputs := rest }) :=
      step_of_turn (nextTurn_of_idle (hidle'.trans hidle) hin')
    exact ⟨_, run_of_step hpre (run_of_step hdone rfl), txDone_ends (s := { u with inputs := rest }) htx hsame⟩
  · have hfail : step s = .next (txFail { s with inputs := rest }) := step_of_turn (nextTurn_of_idle hidle hin)
    obtain ⟨g, n, hc⟩ := complete_eq { s with inputs := rest } e .failed
    rw [txFail_of_busy (s := { s with inputs := rest }) hradio hcurrent, hc] at hfail
    exact ⟨_, hfail, rfl, rfl, rfl⟩

/-- The entry is the only one the arbiter holds, as the host handed it over, and may start. -/
structure AloneAndDue (s : State) (e : TxEntry) : Prop where
  radio : s.radioState = .rx
  current : s.current = none
  idle : s.running = none
  queue : s.txQueue = [e]
  intact : e.storage = .intact
  due : e.dueAt ≤ s.now

/-- What one transmission of an entry puts on the air. -/
def onAirOf (e : TxEntry) : List AirEvent :=
  [.preamble e.opts.frequency e.opts.shortPreamble, .frame e.opts.frequency e.bytes]

/-- The state with the entry's bytes going out and nothing queued. -/
def State.transmitting (s : State) (e : TxEntry) (rest : List Turn) : State :=
  { s with inputs := rest, txQueue := [], current := some e, radioState := .tx, air := s.air ++ onAirOf e }

/-- The state after an entry's transmissions: the time that passed, what went on the air, and what is queued. -/
def State.transmitted (s : State) (ms : Nat) (air : List AirEvent) (queue : List TxEntry) (rest : List Turn) : State :=
  { s with
    inputs := rest, txQueue := queue, current := none, radioState := .rx, now := s.now + ms, air := s.air ++ air }

/-- The time adds up, and what went on the air. -/
theorem State.transmitted_transmitted (s : State) (j k : Nat) (a b : List AirEvent) (p q : List TxEntry)
    (u v : List Turn) : (s.transmitted j a p u).transmitted k b q v = s.transmitted (j + k) (a ++ b) q v := by
  simp [State.transmitted, Nat.add_assoc]

section

variable {s : State} {e : TxEntry}

/-- R190, R192: StartTx and PreambleDone put the entry's bytes on the air. -/
theorem run_to_tx (h : AloneAndDue s e) {rest : List Turn} (hin : s.inputs = .startTx :: .preambleDone :: rest) :
    Host.Core.run core 2 s = .next (s.transmitting e rest) := by
  have hstart := startTxTakesTheOldestDue s _ [] [] e (nextTurn_of_idle h.idle hin) h.radio h.queue h.due nofun nofun
  refine run_of_step hstart (run_of_step
    (preambleDoneSendsTheBytes _ rest e (nextTurn_of_idle h.idle rfl) rfl rfl h.intact) ?_)
  simp [Host.Core.run, State.transmitting, onAirOf]

/-- R193: with a repeat owed, one transmission leaves the entry due for the next. -/
theorem run_transmission_of_owed (h : AloneAndDue s e) (howed : 0 < e.repeatsLeft) {rest : List Turn}
    (hin : s.inputs = transmissions e.opts.repeatTime 1 ++ rest) : Host.Core.run core 4 s =
      .next (s.transmitted e.opts.repeatTime (onAirOf e) [repeated s.now e] rest) := by
  obtain ⟨hdone, -⟩ := txDoneRepeatsOrReports (s.transmitting e (.txDone :: .clock e.opts.repeatTime :: rest)) _ e
    (nextTurn_of_idle h.idle rfl) rfl rfl
  refine run_trans (run_to_tx h hin) (run_of_step (hdone howed (.inr (.inl rfl)))
    (run_of_step (step_clock ?_ rfl) rfl))
  exact h.idle

/-- R193: with none owed, it is reported. -/
theorem run_transmission_of_last (h : AloneAndDue s e) (hlast : e.repeatsLeft = 0) {rest : List Turn}
    (hin : s.inputs = transmissions e.opts.repeatTime 1 ++ rest) : Host.Core.run core 4 s =
      .next ((s.transmitted e.opts.repeatTime (onAirOf e) [] rest).notify (.txComplete e.frame .transmitted)) := by
  obtain ⟨-, hdone⟩ := txDoneRepeatsOrReports (s.transmitting e (.txDone :: .clock e.opts.repeatTime :: rest)) _ e
    (nextTurn_of_idle h.idle rfl) rfl rfl
  refine run_trans (run_to_tx h hin) (run_of_step (hdone (.inl hlast) h.intact)
    (run_of_step (step_clock ?_ rfl) rfl))
  exact h.idle

end

/-- R193: after the wait of a repeat the entry is alone and due again. -/
theorem AloneAndDue.repeated {s : State} {e : TxEntry} (h : AloneAndDue s e) (air : List AirEvent) (rest : List Turn) :
    AloneAndDue (s.transmitted e.opts.repeatTime air [Machine.repeated s.now e] rest) (Machine.repeated s.now e) :=
  ⟨rfl, rfl, h.idle, rfl, h.intact, le_refl _⟩

/-- R193: with `n` repeats owed the entry goes out `n + 1` times and is then reported. -/
theorem run_transmissions {n : Nat} {s : State} {e : TxEntry} {rest : List Turn} (h : AloneAndDue s e)
    (hn : e.repeatsLeft = n) (hin : s.inputs = transmissions e.opts.repeatTime (n + 1) ++ rest) :
    Host.Core.run core (4 * (n + 1)) s = .next
      ((s.transmitted ((n + 1) * e.opts.repeatTime) (List.replicate (n + 1) (onAirOf e)).flatten [] rest).notify
        (.txComplete e.frame .transmitted)) := by
  induction n generalizing s e with
  | zero => simpa using run_transmission_of_last h hn hin
  | succ n ih =>
    have hfirst := run_transmission_of_owed h (by omega) hin
    have hothers := ih (h.repeated (onAirOf e) _) (show e.repeatsLeft - 1 = n by omega) rfl
    have htime : (n + 1 + 1) * e.opts.repeatTime = e.opts.repeatTime + (n + 1) * e.opts.repeatTime := by
      rw [Nat.succ_mul, Nat.add_comm]
    refine (run_trans hfirst hothers).trans ?_
    rw [State.transmitted_transmitted, htime]
    rfl

/-- Settles O53: the entry's own repeats are those owed. -/
theorem frameGoesOutOnePlusRepeatTimes : Obligations.FrameGoesOutOnePlusRepeatTimes := by
  intro s e rest hradio hcurrent hidle hq hintact _ howed hdue hin
  rw [Nat.add_comm 1] at hin ⊢
  refine (run_transmissions ⟨hradio, hcurrent, hidle, hq, hintact, hdue⟩ howed hin).trans ?_
  simp [State.transmitted, State.notify, onAirOf, hradio, hcurrent]

/-! ### Fair runs -/

/-- The radio stays in `RX`, the clock does not go back, and the queue grows at its tail or has one entry marked. -/
def WaitsInRx (s t : State) : Prop :=
  t.radioState = .rx ∧ s.now ≤ t.now ∧
    ((∃ more, t.txQueue = s.txQueue ++ more) ∨ ∃ n st, t.txQueue = s.txQueue.modify n fun e => e.breach st)

/-- From one place of a run to the next a turn is taken, or only the list of turns changes. -/
theorem IsRun.place {run : Nat → State} (hrun : IsRun run) (m : Nat) :
    (∃ turn, Takes run m turn) ∨ ∃ inputs, run (m + 1) = { run m with inputs := inputs } := by
  obtain hs | ⟨more, h⟩ := hrun m
  · cases hn : nextTurn (run m) with
    | none =>
      have hsame := Host.Outcome.next.inj ((step_of_no_turn hn).symm.trans hs)
      exact .inr ⟨(run m).inputs, hsame.symm⟩
    | some p => exact .inl ⟨p.1, ⟨p.2, hn⟩, hs⟩
  · exact .inr ⟨_, h⟩

/-- The next place of a run that takes a turn is what the turn answers. -/
theorem Takes.outcome {run : Nat → State} {m : Nat} {turn : Turn} (ht : Takes run m turn) :
    ∃ rest, runTurn turn { run m with inputs := rest } = .next (run (m + 1)) := by
  obtain ⟨⟨rest, hn⟩, hs⟩ := ht
  exact ⟨rest, (step_of_turn hn).symm.trans hs⟩

/-- R181: the invariant holds at every later place. -/
theorem IsRun.inv_of_le {run : Nat → State} (hrun : IsRun run) {n m : Nat} (hinv : (run n).Inv) (hle : n ≤ m) :
    (run m).Inv := by
  induction m, hle using Nat.le_induction with
  | base => exact hinv
  | succ m _ ih =>
    obtain hs | ⟨more, h⟩ := hrun m
    · exact stepKeepsInv _ _ ih hs
    · rw [h]
      exact ih

/-- R196: while a property that enables an event holds, weak fairness ends the wait: the event is taken, or the property
is left before. -/
theorem WeaklyFair.taken_or_left {run : Nat → State} {turn : Turn} (hfair : WeaklyFair run turn) {P : State → Prop}
    (henables : ∀ s, P s → s.enables turn) {n : Nat} (hn : P (run n)) :
    ∃ m, n ≤ m ∧ P (run m) ∧ (Takes run m turn ∨ ¬ P (run (m + 1))) := by
  by_contra hnever
  have hnext : ∀ m, n ≤ m → P (run m) → ¬ Takes run m turn ∧ P (run (m + 1)) := fun m hm hP =>
    ⟨fun ht => hnever ⟨m, hm, hP, .inl ht⟩, by_contra fun hleft => hnever ⟨m, hm, hP, .inr hleft⟩⟩
  have hall : ∀ m, n ≤ m → P (run m) := fun m hm =>
    Nat.le_induction hn (fun k hk hP => (hnext k hk hP).2) m hm
  obtain ⟨m, hm, ht⟩ := hfair n fun m hm => henables _ (hall m hm)
  exact (hnext m hm (hall m hm)).1 ht

/-! ### A busy radio gets back to `RX` -/

/-- The transmission ends at this place, or the block is reset. -/
def BackToRx (run : Nat → State) (m : Nat) : Prop :=
  (Takes run m .txDone ∨ Takes run m .txFail ∨ Takes run m .reset) ∧ (run (m + 1)).radioState = .rx

/-- R202: from one place to the next a busy radio gets back to `RX`, or goes on from `PREAMBLE` to `TX`, or stays as it is. -/
theorem IsRun.place_busy {run : Nat → State} (hrun : IsRun run) {m : Nat} (hradio : (run m).radioState ≠ .rx) :
    BackToRx run m ∨ ((run m).radioState = .preamble ∧ (run (m + 1)).radioState = .tx) ∨
      (run (m + 1)).radioState = (run m).radioState := by
  obtain ⟨turn, ht⟩ | ⟨inputs, h⟩ := hrun.place m
  · have ⟨⟨rest, hn⟩, hs⟩ := ht
    obtain ⟨rfl | rfl | rfl, hrx⟩ | ⟨-, hpre, htx⟩ | hsame := step_busy hn hs hradio
    · exact .inl ⟨.inr (.inr ht), hrx⟩
    · exact .inl ⟨.inl ht, hrx⟩
    · exact .inl ⟨.inr (.inl ht), hrx⟩
    · exact .inr (.inl ⟨hpre, htx⟩)
    · exact .inr (.inr hsame)
  · exact .inr (.inr (by rw [h]))

/-- R196: from `TX` the transmission ends, or the block is reset. -/
theorem back_to_rx_of_tx {run : Nat → State} (hrun : IsRun run) (hfair : WeaklyFair run .txDone) {n : Nat}
    (hinv : (run n).Inv) (hradio : (run n).radioState = .tx) : ∃ m, n ≤ m ∧ BackToRx run m := by
  obtain ⟨m, hm, htx, ht | hleft⟩ := hfair.taken_or_left (P := fun s => s.radioState = .tx) (fun _ => id) hradio
  · obtain ⟨e, hcurrent⟩ := (hrun.inv_of_le hinv hm).exists_current (by simp [htx])
    obtain ⟨rest, hnext⟩ := ht.outcome
    have hdone : txDone { run m with inputs := rest } = run (m + 1) := Host.Outcome.next.inj hnext
    have ⟨hrx, _⟩ := txDone_ends (s := { run m with inputs := rest }) htx hcurrent
    exact ⟨m, hm, .inl ht, hdone ▸ hrx⟩
  · obtain hback | ⟨hpre, -⟩ | hsame := hrun.place_busy (m := m) (by simp [htx])
    · exact ⟨m, hm, hback⟩
    · cases hpre.symm.trans htx
    · exact absurd (hsame.trans htx) hleft

/-- R196: from `PREAMBLE` the preamble ends, and then the transmission, or that fails or is reset before. -/
theorem back_to_rx_of_preamble {run : Nat → State} (hrun : IsRun run)
    (hfair : ∀ turn, turn ≠ .txFail → WeaklyFair run turn) {n : Nat} (hinv : (run n).Inv) (hradio : (run n).radioState = .preamble) : ∃ m, n ≤ m ∧ BackToRx run m := by
  have from_tx : ∀ m, n ≤ m → (run (m + 1)).radioState = .tx → ∃ k, n ≤ k ∧ BackToRx run k := by
    intro m hm htx
    obtain ⟨k, hk, hback⟩ :=
      back_to_rx_of_tx hrun (hfair .txDone nofun) (hrun.inv_of_le hinv (hm.trans m.le_succ)) htx
    exact ⟨k, by omega, hback⟩
  obtain ⟨m, hm, hpre, ht | hleft⟩ :=
    (hfair .preambleDone nofun).taken_or_left (P := fun s => s.radioState = .preamble) (fun _ => id) hradio
  · have hbusy : (run m).radioState ≠ .rx := by simp [hpre]
    obtain ⟨e, hcurrent⟩ := (hrun.inv_of_le hinv hm).exists_current hbusy
    obtain ⟨rest, hnext⟩ := ht.outcome
    have hdone : preambleDone { run m with inputs := rest } = run (m + 1) := Host.Outcome.next.inj hnext
    have ⟨htx, _⟩ := preambleDone_gives_tx (s := { run m with inputs := rest }) hbusy hcurrent
    exact from_tx m hm (hdone ▸ htx)
  · obtain hback | ⟨-, htx⟩ | hsame := hrun.place_busy (m := m) (by simp [hpre])
    · exact ⟨m, hm, hback⟩
    · exact from_tx m hm htx
    · exact absurd (hsame.trans hpre) hleft

/-! ### An eligible entry is started -/

/-- An entry that is eligible is started at this place. -/
def Starts (run : Nat → State) (m : Nat) : Prop :=
  ∃ e rest, eligible (run m).now (run m).txQueue = some (e, rest) ∧ Takes run m .startTx ∧
    (run (m + 1)).current = some e ∧ (run (m + 1)).radioState = .preamble

/-- R190: from one place in `RX` to the next there is a reset, or an entry is started, or the radio waits. -/
theorem IsRun.place_in_rx {run : Nat → State} (hrun : IsRun run) {m : Nat} (hradio : (run m).radioState = .rx) :
    Takes run m .reset ∨ Starts run m ∨ WaitsInRx (run m) (run (m + 1)) := by
  obtain ⟨turn, ht⟩ | ⟨inputs, h⟩ := hrun.place m
  · have ⟨⟨rest, hn⟩, hs⟩ := ht
    obtain rfl | ⟨rfl, hpre, e, queue, he, hcurrent⟩ | hwaits := step_in_rx hn hs hradio
    · exact .inl ht
    · exact .inr (.inl ⟨e, queue, he, ht, hcurrent, hpre⟩)
    · exact .inr (.inr hwaits)
  · rw [h]
    exact .inr (.inr ⟨hradio, le_refl _, .inl ⟨[], (List.append_nil _).symm⟩⟩)

/-- R190: StartTx starts the entry that is eligible. -/
theorem starts_of_takes {run : Nat → State} {m : Nat} {e : TxEntry} (ht : Takes run m .startTx)
    (hcan : (run m).canStart e) : Starts run m := by
  obtain ⟨d, queue, hd⟩ := eligible_of_canStart hcan
  obtain ⟨rest, hnext⟩ := ht.outcome
  have hstart : startTx { run m with inputs := rest } = run (m + 1) := Host.Outcome.next.inj hnext
  rw [startTx_of_eligible (s := { run m with inputs := rest }) hcan.1 hd] at hstart
  exact ⟨d, queue, hd, ht, hstart ▸ rfl, hstart ▸ rfl⟩

/-- R196: while a property that waiting keeps makes some entry eligible, one is started, or the block is reset. -/
theorem reset_or_starts {run : Nat → State} (hrun : IsRun run) (hfair : WeaklyFair run .startTx) {P : State → Prop}
    (hcan : ∀ s, P s → ∃ e, s.canStart e) (hwaits : ∀ s t, P s → WaitsInRx s t → P t) {n : Nat}
    (hn : P (run n)) : ∃ m, n ≤ m ∧ P (run m) ∧ (Takes run m .reset ∨ Starts run m) := by
  obtain ⟨m, hm, hP, ht⟩ := hfair.taken_or_left hcan hn
  obtain ⟨e, he⟩ := hcan _ hP
  refine ⟨m, hm, hP, ?_⟩
  obtain ht | hleft := ht
  · exact .inr (starts_of_takes ht he)
  · obtain hreset | hstarts | hw := hrun.place_in_rx he.1
    · exact .inl hreset
    · exact .inr hstarts
    · exact absurd (hwaits _ _ hP hw) hleft

/-- Marking one entry of a queue keeps every place, and the entries there but for the mark. -/
theorem modify_breach_append (before : List TxEntry) (n : Nat) (st : FrameStorage) (e : TxEntry) (after : List TxEntry) :
    ∃ before' st' after',
      ((before ++ e :: after).modify n fun d => d.breach st) = before' ++ { e with storage := st' } :: after' ∧
        ∀ d' ∈ before'.head?, ∃ d ∈ before.head?, ∃ mark, d' = { d with storage := mark } := by
  induction before generalizing n with
  | nil =>
    obtain ⟨st', tail', h⟩ := modify_breach_cons n st e after
    exact ⟨[], st', tail', h, nofun⟩
  | cons b before ih =>
    cases n with
    | zero => exact ⟨b.breach st :: before, e.storage, after, rfl, by simp [TxEntry.breach]⟩
    | succ n =>
      obtain ⟨before', st', after', h, -⟩ := ih n
      exact ⟨b :: before', st', after', congrArg (b :: ·) h, fun d hd => ⟨d, hd, d.storage, rfl⟩⟩

/-- R190, R194 (a): an entry that can start can start while the radio waits, its storage mark apart. -/
theorem canStart_of_waits {s t : State} {e : TxEntry} (h : s.canStart e) (hw : WaitsInRx s t) : ∃ d, t.canStart d := by
  obtain ⟨-, before, after, hq, hdue, hhead⟩ := h
  obtain ⟨hradio, hnow, ⟨more, hgrows⟩ | ⟨n, st, hmarks⟩⟩ := hw
  · exact ⟨e, hradio, before, after ++ more, by simp [hgrows, hq], hdue.trans hnow, hhead⟩
  · obtain ⟨before', st', after', h, hhead'⟩ := modify_breach_append before n st e after
    refine ⟨{ e with storage := st' }, hradio, before', after', by rw [hmarks, hq, h], hdue.trans hnow, fun d' hd' => ?_⟩
    obtain ⟨d, hd, mark, rfl⟩ := hhead' d' hd'
    exact hhead d hd

/-- The oldest entry of all is `e`, its storage mark apart, and it is due. -/
def HeadIsDue (e : TxEntry) (s : State) : Prop :=
  s.radioState = .rx ∧ e.dueAt ≤ s.now ∧ ∃ st tail, s.txQueue = { e with storage := st } :: tail

/-- R190, R194 (a): nothing holds back a due entry at the head. -/
theorem HeadIsDue.canStart {e : TxEntry} {s : State} (h : HeadIsDue e s) : ∃ d, s.canStart d := by
  obtain ⟨hradio, hdue, st, tail, hq⟩ := h
  exact ⟨_, hradio, [], tail, hq, hdue, nofun⟩

/-- R190: a due entry at the head stays there while the radio waits. -/
theorem HeadIsDue.of_waits {e : TxEntry} {s t : State} (h : HeadIsDue e s) (hw : WaitsInRx s t) : HeadIsDue e t := by
  obtain ⟨-, hdue, st, tail, hq⟩ := h
  obtain ⟨hradio, hnow, ⟨more, hgrows⟩ | ⟨n, st', hmarks⟩⟩ := hw
  · exact ⟨hradio, hdue.trans hnow, st, tail ++ more, by simp [hgrows, hq]⟩
  · obtain ⟨mark, tail', h⟩ := modify_breach_cons n st' { e with storage := st } tail
    exact ⟨hradio, hdue.trans hnow, mark, tail', by rw [hmarks, hq, h]⟩

/-- Settles O59: each of the two busy states is left, the wait of an eligible entry ends, and the oldest entry is the one
that is taken. -/
theorem fairRunsMakeProgress : Obligations.FairRunsMakeProgress := by
  intro run n hrun hfair hinv
  refine ⟨fun hbusy => ?_, fun e he => ?_, fun e tail hradio hq hdue => ?_⟩
  · cases hr : (run n).radioState with
    | rx => exact absurd hr hbusy
    | preamble => exact back_to_rx_of_preamble hrun hfair hinv hr
    | tx => exact back_to_rx_of_tx hrun (hfair .txDone nofun) hinv hr
  · obtain ⟨m, hm, ⟨e', he'⟩, hreset | ⟨d, rest, hd, ht, hcurrent, hpre⟩⟩ :=
      reset_or_starts hrun (hfair .startTx nofun) (P := fun s => ∃ e, s.canStart e) (fun _ => id)
        (fun _ _ ⟨_, h⟩ => canStart_of_waits h) ⟨e, he⟩
    · exact ⟨m, hm, .inl hreset⟩
    · exact ⟨m, hm, .inr ⟨d, canStart_of_eligible he'.1 hd, ht, hcurrent, hpre⟩⟩
  · have hhead : HeadIsDue e (run n) := ⟨hradio, hdue, e.storage, tail, hq⟩
    obtain ⟨m, hm, ⟨-, hdue', st, tail', hq'⟩, hreset | ⟨d, rest, hd, ht, hcurrent, hpre⟩⟩ :=
      reset_or_starts hrun (hfair .startTx nofun) (fun _ => HeadIsDue.canStart) (fun _ _ => HeadIsDue.of_waits) hhead
    · exact ⟨m, hm, .inl hreset⟩
    · rw [hq', eligible_cons_of_due (e := { e with storage := st }) hdue'] at hd
      cases hd
      exact ⟨m, hm, .inr ⟨st, ht, hcurrent, hpre⟩⟩

end Sys2Proof.Machine
end

section
/-! PROOFS of the family 60_exceptions.md: the arbiter's events wait for the callback, and the reference vectors of SELFTEST
come out. -/

namespace Sys2Proof.Machine

open Sys2Proof.Claims

/-! ### The events that wait -/

/-- R259: the turns that wait for the callback are the events of R180 and R198, which name a command by its arriving frame. -/
theorem isArbiterEvent_iff (t : Turn) : t.isArbiterEvent = true ↔ IsEvent t := by
  cases t with
  | command request => cases h : decodeCommand request <;> simp [Turn.isArbiterEvent, IsEvent, h, arrives_eq_isSome]
  | startTx | preambleDone | txDone | txFail | rxFrame => simp [Turn.isArbiterEvent, IsEvent]
  | operation | callbackReturns | frameChanged | frameFreed | clock | reset => simp [Turn.isArbiterEvent, IsEvent]

/-- R259: while the callback runs, the next turn is the first that is no event. -/
theorem nextTurn_of_runs {s : State} (hruns : s.running.isSome = true) : nextTurn s = takeHostTurn s.inputs := by
  obtain ⟨_, hr⟩ := Option.isSome_iff_exists.mp hruns
  simp only [nextTurn, hr]

/-- While no callback runs, there is no next turn when the list is empty. -/
theorem nextTurn_of_idle_nil {s : State} (hidle : s.running = none) (hin : s.inputs = []) : nextTurn s = none := by
  simp only [nextTurn, hidle, hin]

/-- Settles O44: the running callback lets the first turn through that is no event; with none running the list's head is
next. -/
theorem arbiterEventsWaitForTheCallback : Obligations.ArbiterEventsWaitForTheCallback := by
  refine fun s => ⟨fun t rest hruns hn => ?_, fun hruns hn t ht => ?_, fun _ _ => nextTurn_of_idle, nextTurn_of_idle_nil⟩
  · rw [nextTurn_of_runs hruns] at hn
    obtain ⟨hhost, before, after, hin, hrest, hevents⟩ := takeHostTurn_some hn
    have hnot : ¬ IsEvent t := by simp [← isArbiterEvent_iff, hhost]
    exact ⟨hnot, before, after, hin, hrest, fun b hb => (isArbiterEvent_iff b).mp (hevents b hb)⟩
  · rw [nextTurn_of_runs hruns] at hn
    exact (isArbiterEvent_iff t).mp (takeHostTurn_none hn t ht)

/-! ### The reference vectors -/

/-- R270, vector 1. -/
theorem wrap1w_testKeyA : wrap1w testAddress testKeyA = vectorOne := by decide +kernel

/-- R270, vector 2. -/
theorem mac1w_vectorOne : mac1w testSequence testKeyA (0x30 :: vectorOne.data) =
    ⟨[0x19, 0xE8, 0x1E, 0xC4, 0x3D, 0x5E], rfl⟩ := by decide +kernel

/-- R270, vector 3. -/
theorem wrap2w_testKeyB : wrap2w testKeyB testChallenge [0x38, 0x12, 0x34, 0x56, 0x78, 0x9A, 0xBC] = vectorThree := by
  decide +kernel

/-- R270, vector 4. -/
theorem mac2w_vectorThree : mac2w testChallenge testKeyB (0x32 :: vectorThree.data) =
    ⟨[0x0A, 0xE5, 0x19, 0xA7, 0x3C, 0x99], rfl⟩ := by decide +kernel

/-- R270, vector 5. -/
theorem frameEnc_testFrame : frameEnc testFrame =
    .ok ([0x18, 0x04, 0xF0, 0x0F, 0x00, 0xFE, 0xEF, 0xEE, 0x32] ++ vectorThree.data ++ [0x63, 0x79]) := by decide +kernel

/-- R270, vector 6. -/
theorem wrap2w_testKeyA : wrap2w testKeyA testChallenge [0x31] =
    ⟨[0x10, 0x2E, 0x49, 0xA1, 0x6D, 0x3B, 0x69, 0x72, 0x6F, 0x31, 0x92, 0xCF, 0x17, 0x53, 0x4A, 0xD9], rfl⟩ := by
  decide +kernel

/-- R270: the wrapped key of SELFTEST's frame is the result of vector 3. -/
theorem testWrappedB_eq : testWrappedB = vectorThree.data := rfl

/-- R270: all six checks of SELFTEST succeed. -/
theorem selfTestChecks_eq : selfTestChecks = List.replicate 6 true := by
  simp only [selfTestChecks, wrap1w_testKeyA, mac1w_vectorOne, wrap2w_testKeyB, mac2w_vectorThree, frameEnc_testFrame,
    wrap2w_testKeyA, testWrappedB_eq]
  decide

/-- R270: no index is found where every check succeeds. -/
theorem firstFailure_replicate_true (i n : Nat) : firstFailure i (List.replicate n true) = none := by
  induction n generalizing i with
  | zero => rfl
  | succ n ih => exact ih (i + 1)

/-- R270: no vector fails. -/
theorem firstFailure_selfTestChecks : firstFailure 1 selfTestChecks = none := by
  rw [selfTestChecks_eq, firstFailure_replicate_true]

/-- R270: SELFTEST answers `Pass`. -/
theorem selfTest_eq (s : State) : selfTest s = s.finish .pass := by
  unfold selfTest
  rw [firstFailure_selfTestChecks]

/-- Settles O31: SELFTEST's checks are the six vectors, and each operation answers its vector. -/
theorem selftestPasses : Obligations.SelftestPasses := fun s =>
  ⟨rfl, congrArg Host.Outcome.next (selfTest_eq s), wrap1w_testKeyA ▸ exec_wrap1w testAddress testKeyA s,
    mac1w_vectorOne ▸ exec_mac1w testSequence testKeyA _ s, wrap2w_testKeyB ▸ exec_wrap2w testKeyB testChallenge _ s,
    mac2w_vectorThree ▸ exec_mac2w testChallenge testKeyB _ s, exec_frameEnc_of_ok frameEnc_testFrame s,
    wrap2w_testKeyA ▸ exec_wrap2w testKeyA testChallenge _ s⟩

end Sys2Proof.Machine
end

section
/-! PROOFS of the family 70_reset_and_hazards.md: reset, the mark that a breach of the ownership rule leaves, and how a marked
entry goes on. -/

namespace Sys2Proof.Machine

open Sys2Proof.Claims

/-! ### Reset -/

/-- Settles O45: reset is taken like any turn, and leaves the fields of the block at their values after reset. -/
theorem resetDiscardsWithoutReport : Obligations.ResetDiscardsWithoutReport := by
  intro s rest hn
  rw [step_of_turn hn]
  rfl

/-! ### The mark of a breach -/

/-- The entry behind `before` is the one at the place `before.length`. -/
theorem modify_breach_at_length (before : List TxEntry) (e : TxEntry) (after : List TxEntry) (st : FrameStorage) :
    ((before ++ e :: after).modify before.length fun d => d.breach st) = before ++ marked e st :: after :=
  List.modifyTailIdx_add _ 0 before (e :: after)

/-- R292: where no frame is owned, a breach does nothing. -/
theorem breach_of_not_owned {s : State} {slot : Nat} (h : s.owned.length ≤ slot) (st : FrameStorage) :
    s.breach slot st = s := by
  obtain ⟨hc, hs⟩ | ⟨c, hc, rfl, -⟩ | ⟨c, n, hc, rfl, hs⟩ := breach_cases s slot st
  · rw [hs, List.modify_eq_self (by simpa [State.owned, hc] using h)]
  · simp [State.owned, hc] at h
  · rw [hs, List.modify_eq_self (by simpa [State.owned, hc] using h)]

/-- R292: with nothing on the air the queue's entries are counted from 0. -/
theorem breach_of_queued {s : State} {before after : List TxEntry} {e : TxEntry} (hcurrent : s.current = none)
    (hq : s.txQueue = before ++ e :: after) (st : FrameStorage) :
    s.breach before.length st = { s with txQueue := before ++ marked e st :: after } := by
  simp only [State.breach, hcurrent, hq, modify_breach_at_length]

/-- R292: with an entry on the air the queue's entries are counted from 1. -/
theorem breach_of_queued_behind {s : State} {c e : TxEntry} {before after : List TxEntry} (hcurrent : s.current = some c)
    (hq : s.txQueue = before ++ e :: after) (st : FrameStorage) :
    s.breach (before.length + 1) st = { s with txQueue := before ++ marked e st :: after } := by
  simp only [State.breach, hcurrent, hq, Nat.succ_ne_zero, if_false, Nat.add_sub_cancel, modify_breach_at_length]

/-- R292: slot 0 is the entry on the air; only its mark changes while none of its bytes go out. -/
theorem breach_of_onAir {s : State} {c : TxEntry} (hcurrent : s.current = some c) (hradio : s.radioState ≠ .tx)
    (st : FrameStorage) : s.breach 0 st = { s with current := some (marked c st) } := by
  simp only [State.breach, hcurrent, if_true]
  exact disturbAir_of_ne hradio

/-- R292, U7: in `TX` its bytes become any value, too. -/
theorem breach_of_going_out {s : State} {c : TxEntry} {log : List AirEvent} {channel : Nat} {bytes : List Byte}
    (hcurrent : s.current = some c) (hradio : s.radioState = .tx) (hair : s.air = log ++ [.frame channel bytes])
    (st : FrameStorage) : s.breach 0 st = { s with
      current := some (marked c st), air := log ++ [.frame channel (Config.strayBytes s.freeIndex)],
      freeIndex := s.freeIndex + 1 } := by
  simp only [State.breach, hcurrent, if_true]
  exact disturbAir_of_tx hradio hair

/-- R292: both of the host's breaches are the one operation, with their marks. -/
theorem step_of_breach {s : State} {turn : Turn} {rest : List Turn} {slot : Nat} {st : FrameStorage}
    (hn : nextTurn s = some (turn, rest))
    (h : (∃ g, turn = .frameChanged slot g ∧ st = .changed g) ∨ (turn = .frameFreed slot ∧ st = .freed)) :
    step s = .next (State.breach { s with inputs := rest } slot st) := by
  rw [step_of_turn hn]
  obtain ⟨g, rfl, rfl⟩ | ⟨rfl, rfl⟩ := h <;> rfl

/-- Settles O56, by the place of the slot among the frames owned, and for the one on the air by whether its bytes are going
out. -/
theorem breachMarksOneOwnedFrame : Obligations.BreachMarksOneOwnedFrame := by
  intro s turn rest slot st hn hturn
  rw [step_of_breach hn hturn]
  refine ⟨fun hslot => ?_, fun before e after hcurrent hq hslot => ?_, fun c before e after hcurrent hq hslot => ?_,
    fun c hcurrent hslot hradio => ?_,
    fun c log channel bytes hcurrent hslot hradio hair => ⟨Config.strayBytes s.freeIndex, ?_⟩⟩
  · rw [breach_of_not_owned (s := { s with inputs := rest }) hslot]
  · rw [hslot, breach_of_queued (s := { s with inputs := rest }) hcurrent hq]
  · rw [hslot, breach_of_queued_behind (s := { s with inputs := rest }) hcurrent hq]
  · rw [hslot, breach_of_onAir (s := { s with inputs := rest }) hcurrent hradio]
  · rw [hslot, breach_of_going_out (s := { s with inputs := rest }) hcurrent hradio hair]

/-! ### A marked entry goes on -/

/-- R292: a marked entry draws one free value. -/
theorem State.drawFor_of_breached {e : TxEntry} (h : e.storage ≠ .intact) (s : State) : s.drawFor e = s.drawFree :=
  if_neg h

/-- R292, U7: any frame is reported for a marked entry. -/
theorem reportedFrame_of_breached {e : TxEntry} (h : e.storage ≠ .intact) (n : Nat) : reportedFrame n e = strayFrame n := by
  cases hst : e.storage with
  | intact => exact absurd hst h
  | changed | freed => simp only [reportedFrame, hst]

/-- R193, R195, R292: the report of a marked entry. -/
theorem complete_of_breached {e : TxEntry} (h : e.storage ≠ .intact) (s : State) (status : TxStatus) :
    complete s e status = (s.notify (.txComplete (strayFrame s.freeIndex) status)).drawFree.endTx := by
  simp only [complete, State.drawFor_of_breached h, reportedFrame_of_breached h]

/-- R292 (a): an entry whose changed record has an encoding sends the old bytes or the new ones. -/
theorem sentBytes_of_changed {e : TxEntry} {g : Frame} {new : List Byte} (h : e.storage = .changed g)
    (henc : frameEnc g = .ok new) (n : Nat) : sentBytes n e = e.bytes ∨ sentBytes n e = new := by
  simp only [sentBytes, h, henc]
  split
  · exact .inl rfl
  · exact .inr rfl

/-- FRAME_ENC answers bytes exactly when the record has an encoding, and then that one. -/
theorem exec_frameEnc_ok_iff {f : Frame} {bytes : List Byte} {s : State} :
    exec (.frameEnc f) s = .next (s.finish (.encoded bytes)) ↔ frameEnc f = .ok bytes := by
  rw [exec_frameEnc]
  obtain ⟨made, henc, hs⟩ | ⟨e, henc, hs⟩ := encodeFrame_cases f s
  · simp [hs, henc, State.finish]
  · simp [hs, henc, State.raise, State.finish]

/-- R192, R292: the preamble's end with a marked entry on the air. -/
theorem step_preambleDone_of_breached {s : State} {rest : List Turn} {e : TxEntry}
    (hn : nextTurn s = some (.preambleDone, rest)) (hradio : s.radioState = .preamble) (hcurrent : s.current = some e)
    (hbreached : e.storage ≠ .intact) :
    step s = .next { s with
      inputs := rest, radioState := .tx, air := s.air ++ [.frame e.opts.frequency (sentBytes s.freeIndex e)],
      freeIndex := s.freeIndex + 1 } := by
  rw [step_of_turn hn, runTurn, preambleDone_of_preamble (s := { s with inputs := rest }) hradio hcurrent,
    State.drawFor_of_breached hbreached]
  rfl

/-- Settles O46: the bytes that a changed record leaves to choose from. -/
theorem changedFrameSendsOldOrNewBytes : Obligations.ChangedFrameSendsOldOrNewBytes := by
  intro s rest e g new hn hradio hcurrent hchanged hexec
  have henc : frameEnc g = .ok new := exec_frameEnc_ok_iff.mp hexec
  exact ⟨_, sentBytes_of_changed hchanged henc s.freeIndex,
    step_preambleDone_of_breached hn hradio hcurrent (by simp [hchanged])⟩

/-- Settles O57: each of the three events, with an entry on the air that is marked. -/
theorem breachedFrameGoesOnWithFreeValues : Obligations.BreachedFrameGoesOnWithFreeValues := by
  intro s rest e hcurrent
  refine ⟨fun hn hradio hlost => ⟨sentBytes s.freeIndex e, ?_⟩,
    fun hn hradio hbreached hlast => ⟨strayFrame s.freeIndex, ?_⟩, fun hn hradio hbreached => ⟨strayFrame s.freeIndex, ?_⟩⟩
  · have hbreached : e.storage ≠ .intact := by obtain h | ⟨g, h, -⟩ := hlost <;> simp [h]
    exact step_preambleDone_of_breached hn hradio hcurrent hbreached
  · rw [step_of_turn hn, runTurn, txDone_of_last (s := { s with inputs := rest }) hradio hcurrent hlast,
      complete_of_breached hbreached]
    rfl
  · have hbusy : s.radioState ≠ .rx := by obtain h | h := hradio <;> simp [h]
    rw [step_of_turn hn, runTurn, txFail_of_busy (s := { s with inputs := rest }) hbusy hcurrent,
      complete_of_breached hbreached]
    rfl

end Sys2Proof.Machine
end
